-- ==== Sys2Proof/Word.lean ====
section
/-! DEFINITION. The bit patterns of QCMX, by the type names of 00_scope.md rule R7. A signed type is the same pattern
read with `BitVec.toInt`, an unsigned one with `BitVec.toNat`; `as_s8` of rule R7 is `BitVec.toInt`, `as_u8` is
`BitVec.ofInt 8`. -/

namespace Sys2Proof

/-- `u8` of R7: a byte of the inbound stream. Bit 7 is the most significant. -/
abbrev Byte := BitVec 8

/-- `s8` of R7: a commanded axis. -/
abbrev S8 := BitVec 8

/-- `s16` of R7: an offset. -/
abbrev S16 := BitVec 16

/-- `u16` of R7: a duty. -/
abbrev U16 := BitVec 16

/-- `s32` of R7: a derived quantity, or a data port of a request (R65). -/
abbrev S32 := BitVec 32

/-- The canonical packing of a request, `Q[167:0]` of R68. -/
abbrev RequestWord := BitVec 168

/-- A frame written as the 64-bit string `F[63:0]` of R61. -/
abbrev FrameWord := BitVec 64

end Sys2Proof
end

