-- ==== Sys2Proof/Config.lean ====
section
/-! DEFINITION. The configuration record of 00_scope.md rule R4, its well-formedness (rule R5) and the reference
configuration REF (rule R6). An ill-formed record gives no machine at all: `Config` pairs the record with the proof of
R5, so no state and no step exists over an ill-formed one (R5: "it gives it no meaning rather than a value"). -/

namespace Sys2Proof

/-- One row `(cZ, cL, cM, cN)` of `MIXCOEF` (R4). -/
structure MixRow where
  cZ : Int
  cL : Int
  cM : Int
  cN : Int
  deriving DecidableEq, Repr, Inhabited

/-- `MIXCOEF` (R4): one row per actuator. -/
structure MixCoef where
  r0 : MixRow
  r1 : MixRow
  r2 : MixRow
  r3 : MixRow
  deriving DecidableEq, Repr, Inhabited

/-- The parameters of R4. A field's default is its value in REF (R6), the column the spec uses for test vectors only;
no claim may rest on one. -/
structure ConfigData where
  /-- `HEADER`, the header sentinel. -/
  header : Byte := 0x80
  /-- `MIN_EFFORT`. -/
  minEffort : Int := 1600
  /-- `MAX_EFFORT`. -/
  maxEffort : Int := 16000
  /-- `EFFORT_BIAS`. -/
  effortBias : Int := 1600
  /-- `DUTY_SHIFT`. -/
  dutyShift : Nat := 4
  /-- `MAX_DUTY`. -/
  maxDuty : Int := 1000
  /-- `MIXCOEF`. -/
  mixCoef : MixCoef := ⟨⟨1, 0, 2, -1⟩, ⟨1, -2, 0, 1⟩, ⟨1, 0, -2, -1⟩, ⟨1, 2, 0, 1⟩⟩
  /-- `K_LIFT`. -/
  kLift : Int := 256
  /-- `K_ROLL`. -/
  kRoll : Int := 64
  /-- `K_PITCH`. -/
  kPitch : Int := 64
  /-- `K_YAW`. -/
  kYaw : Int := 128
  /-- `K_RSET`. -/
  kRset : Int := 16
  /-- `K_ASET`. -/
  kAset : Int := 16
  /-- `P_RST`. -/
  pRst : Int := 0
  /-- `P1_RST`. -/
  p1Rst : Int := 0
  /-- `P2_RST`. -/
  p2Rst : Int := 0
  deriving DecidableEq, Repr, Inhabited

/-- R5 item 1. -/
abbrev ConfigData.EffortBoundsOk (c : ConfigData) : Prop :=
  0 ≤ c.minEffort ∧ c.minEffort ≤ c.maxEffort ∧ c.maxEffort ≤ 2147483647

/-- R5 item 2. -/
abbrev ConfigData.BiasOk (c : ConfigData) : Prop :=
  -2147483648 ≤ c.effortBias ∧ c.effortBias ≤ 2147483647

/-- R5 item 3. -/
abbrev ConfigData.ShiftOk (c : ConfigData) : Prop := c.dutyShift ≤ 31

/-- R5 item 4. -/
abbrev ConfigData.DutyBoundOk (c : ConfigData) : Prop :=
  c.maxEffort / 2 ^ c.dutyShift ≤ c.maxDuty ∧ c.maxDuty ≤ 65535

/-- R5 item 5, the weights of one row. -/
abbrev MixRow.WeightsOk (r : MixRow) : Prop :=
  r.cZ = 1 ∧ (r.cN = 1 ∨ r.cN = -1) ∧
    (r.cL = -2 ∨ r.cL = 0 ∨ r.cL = 2) ∧ (r.cM = -2 ∨ r.cM = 0 ∨ r.cM = 2)

/-- R5 item 5, all four rows and the alternating sign of the yaw term. -/
abbrev ConfigData.MixOk (c : ConfigData) : Prop :=
  c.mixCoef.r0.WeightsOk ∧ c.mixCoef.r1.WeightsOk ∧ c.mixCoef.r2.WeightsOk ∧ c.mixCoef.r3.WeightsOk ∧
    c.mixCoef.r0.cN = c.mixCoef.r2.cN ∧ c.mixCoef.r2.cN = -c.mixCoef.r1.cN ∧ c.mixCoef.r1.cN = c.mixCoef.r3.cN

/-- The magnitude bound of R5 item 6 on one scale parameter. -/
abbrev ScaleOk (k : Int) : Prop := -65536 ≤ k ∧ k ≤ 65536

/-- R5 item 6. -/
abbrev ConfigData.ScalesOk (c : ConfigData) : Prop :=
  1 ≤ c.kLift ∧ c.kLift ≤ 65536 ∧ ScaleOk c.kRoll ∧ ScaleOk c.kPitch ∧ ScaleOk c.kYaw ∧ ScaleOk c.kRset ∧
    ScaleOk c.kAset

/-- The range of R5 item 7 on one reset value of a gain. -/
abbrev GainResetOk (p : Int) : Prop := 0 ≤ p ∧ p ≤ 127

/-- R5 item 7. -/
abbrev ConfigData.GainResetsOk (c : ConfigData) : Prop :=
  GainResetOk c.pRst ∧ GainResetOk c.p1Rst ∧ GainResetOk c.p2Rst

/-- R5: a well-formed configuration, items 1 to 7. -/
def ConfigData.wellFormed (c : ConfigData) : Bool :=
  decide c.EffortBoundsOk && decide c.BiasOk && decide c.ShiftOk && decide c.DutyBoundOk && decide c.MixOk &&
    decide c.ScalesOk && decide c.GainResetsOk

/-- A well-formed configuration: the record of R4 with the proof of R5. The default is only what shows Lean that one
exists. -/
structure Config extends ConfigData where
  wf : toConfigData.wellFormed = true := by decide
  deriving DecidableEq, Repr, Inhabited

/-- REF (R6), for examples and tests only. -/
def Config.ref : Config := {}

/-- The configuration of the machine that `State.reset` starts: SOME well-formed one, and nothing else is known of it.
It has no body, so no proof can rest on a value the source leaves OPEN (92_eei_decisions.md D3, D12, D14, D17, D18,
D19; assumption log 1). -/
opaque Config.installed : Config

end Sys2Proof
end

