-- ==== Sys2Proof/Syntax.lean ====
section
/-! DEFINITION. The operations of QCMX as syntax: one constructor of `Instr` for each row of spec/opcode_table.json
(30_encoding.md rules R60, R66, R67, R73), and `Code`, the forms in which one is given to the decoder. -/

namespace Sys2Proof

/-- The gain selector of SETGAIN and GADJ (R67): `P`, `P1`, `P2`. -/
inductive Gain where
  | p
  | p1
  | p2
  deriving DecidableEq, Repr

/-- The offset selector of SETOFF (R67): `P_OFF`, `Q_OFF`, `R_OFF`, `PHI_OFF`, `THETA_OFF`. -/
inductive Offset where
  | pOff
  | qOff
  | rOff
  | phiOff
  | thetaOff
  deriving DecidableEq, Repr

/-- The direction of GADJ (R65): `dir` 0 is `+`, 1 is `-`. -/
inductive Dir where
  | up
  | down
  deriving DecidableEq, Repr

/-- Eight bytes in order of arrival, under the field names of R61. -/
structure Frame where
  header : Byte
  mode : Byte
  gain : Byte
  lift : Byte
  pitch : Byte
  roll : Byte
  yaw : Byte
  chk : Byte
  deriving DecidableEq, Repr

/-- The operations, in the order of spec/opcode_table.json. A data operand is the 32-bit port that carries it (R65). -/
inductive Instr where
  /-- NOP (R157). -/
  | nop
  /-- PUSH (R86): `a` = byte. -/
  | push (a : S32)
  /-- DECODE (R87). -/
  | decode
  /-- SETCMD (R144): lift, pitch, roll, yaw. -/
  | setcmd (a b c d : S32)
  /-- SETGAIN (R148). -/
  | setgain (g : Gain) (a : S32)
  /-- GADJ (R150). -/
  | gadj (g : Gain) (dir : Dir)
  /-- SETOFF (R152). -/
  | setoff (o : Offset) (a : S32)
  /-- SETMOM (R112): Z, L, M, N. -/
  | setmom (a b c d : S32)
  /-- MOMENT.MANUAL (R115). -/
  | momentManual
  /-- MOMENT.YAW (R116): `e` = sr. -/
  | momentYaw (sr : S32)
  /-- MOMENT.FULL (R117): phi, theta, sp, sq, sr on ports `a` to `e`. -/
  | momentFull (phi theta sp sq sr : S32)
  /-- MIX (R120). -/
  | mix
  /-- SETACT (R154): duties for actuators 0 to 3. -/
  | setact (a b c d : S32)
  /-- CLRSTATE (R156). -/
  | clrstate
  /-- RESERVED_C: `op` 0xC (R70). -/
  | reservedC
  /-- RESERVED_D: `op` 0xD (R70). -/
  | reservedD
  /-- RESERVED_E: `op` 0xE (R70). -/
  | reservedE
  /-- RESET (R180). -/
  | reset
  /-- MOMENT.RESERVED_SEL3: MOMENT with `sel` 3 (R67, R70). -/
  | momentReservedSel3
  /-- MOMENT.RESERVED_SEL4_7: MOMENT with `sel` = 4 + k (R67, R70). -/
  | momentReservedSel4to7 (k : BitVec 2)
  /-- PKT (R60, R87): a frame at the read position of the inbound stream, and the DECODE that reads it. -/
  | pkt (f : Frame)
  /-- LOADCMD (R145), pseudo. -/
  | loadcmd
  /-- ZEROACT (R155), pseudo. -/
  | zeroact
  /-- TICK.MANUAL (R130), pseudo. -/
  | tickManual
  /-- TICK.YAW (R130), pseudo. -/
  | tickYaw (sr : S32)
  /-- TICK.FULL (R130), pseudo. -/
  | tickFull (phi theta sp sq sr : S32)
  /-- PUSHFRAME (R73), pseudo: any eight bytes, `f.header` first. -/
  | pushframe (f : Frame)
  /-- SENDCMD (R73), pseudo. An axis operand is an integer in -64..63 (R96): a signed 7-bit value, which has exactly
  that range (assumption log 7). -/
  | sendcmd (mode gain : Byte) (lift pitch roll yaw : BitVec 7)
  deriving DecidableEq, Repr

/-- What the decoder is given. -/
inductive Code where
  /-- A request in its canonical packing (R68). -/
  | req (q : RequestWord)
  /-- A frame on the inbound byte stream (R61). -/
  | frame (f : FrameWord)
  /-- A line of a program in the syntax of R72: the operation named by its mnemonic, with its operands. It is the only
  form a pseudo-operation has, which "has no code of its own" (R73). -/
  | line (i : Instr)
  deriving DecidableEq, Repr

end Sys2Proof
end

