-- ==== Sys2Proof/Machine/Operands.lean ====
section
/-! DEFINITION. The combinational functions of QCMX (the checksum XOR tree, the sign-bit restorer, the clamp, the
division, the right shift), the operand ranges of requests, and a frame as bytes: everything that reads an operand and
no state. -/

namespace Sys2Proof.Machine

/-- `sat` (42_saturation_and_command.md rule R140). -/
def sat (v lo hi : Int) : Int :=
  if v < lo then lo else if v > hi then hi else v

/-- `tdiv` (41_mixer.md rule R111): division truncating toward zero, for a positive divisor. -/
def tdiv (a b : Int) : Int :=
  if 0 ≤ a then a / b else -((-a) / b)

/-- `v >> n` of R7 on a non-negative integer: `floor(v / 2^n)`. -/
def shr (v : Int) (n : Nat) : Int := v / 2 ^ n

/-- `chk7` (40_codec.md rule R80): the exclusive or of the seven bytes, shifted right arithmetically by one and masked
to 7 bits. -/
def chk7 (h m g l p r y : Byte) : BitVec 7 :=
  (((h ^^^ m ^^^ g ^^^ l ^^^ p ^^^ r ^^^ y).sshiftRight 1) &&& 0x7F#8).setWidth 7

/-- `srest` (40_codec.md rule R84): bit 6 copied into bit 7 when it is set. -/
def srest (b : Byte) : Byte := b ||| ((b &&& 0x40#8) <<< 1)

/-- The operand range `u8` of PUSH (R66). -/
def inU8 (a : S32) : Bool := decide (0 ≤ a.toInt) && decide (a.toInt ≤ 255)

/-- The operand range `s16` of SETOFF and of the sensor operands of MOMENT (R66, R114). -/
def inS16 (a : S32) : Bool := decide (-32768 ≤ a.toInt) && decide (a.toInt ≤ 32767)

/-- The range check of the five sensor operands MOMENT.FULL uses (R66, R114). -/
def sensorsOk (phi theta sp sq sr : S32) : Bool :=
  inS16 phi && inS16 theta && inS16 sp && inS16 sq && inS16 sr

/-- The bytes of a frame in order of arrival (R46, R61). -/
def frameBytes (f : Frame) : List Byte :=
  [f.header, f.mode, f.gain, f.lift, f.pitch, f.roll, f.yaw, f.chk]

/-- The check of R63 and R90 on a frame: the received checksum byte, all 8 bits, equals the computed 7-bit value
zero-extended. The header that takes part is the frame's own, which is `HEADER` wherever the codec uses it (R80). -/
def frameChecks (f : Frame) : Bool :=
  (chk7 f.header f.mode f.gain f.lift f.pitch f.roll f.yaw).setWidth 8 == f.chk

/-- A valid command packet (R60, R61, R63): it begins with `HEADER` and its checksum is right. -/
def validPacket (c : Config) (f : Frame) : Bool := f.header == c.header && frameChecks f

/-- `as_u8(v) & 0x7F` of R96 for an axis in -64..63. -/
def axisByte (v : BitVec 7) : Byte := v.setWidth 8

/-- `ENCODE` (40_codec.md rule R96). -/
def encodePayload (c : Config) (mode gain : Byte) (lift pitch roll yaw : BitVec 7) : Frame :=
  let l := axisByte lift
  let p := axisByte pitch
  let r := axisByte roll
  let y := axisByte yaw
  ⟨c.header, mode, gain, l, p, r, y, (chk7 c.header mode gain l p r y).setWidth 8⟩

end Sys2Proof.Machine
end

