-- ==== Sys2Proof/WellFormed.lean ====
section
/-! DEFINITION. Which operations are well formed (30_encoding.md rules R66, R67, R70): the codes and operands that have
a meaning. Selectors are constructors of `Gain` and `Offset`, so a reserved one is refused by the decoder. -/

namespace Sys2Proof

/-- R70 as a check on syntax. A frame is never ill formed: any eight bytes may stand on the stream, and the codec has a
defined answer for each (R69); `Machine.validPacket` says which it accepts. -/
def Instr.wf : Instr → Bool
  | .nop => true
  | .push a => Machine.inU8 a
  | .decode => true
  | .setcmd _ _ _ _ => true
  | .setgain _ _ => true
  | .gadj _ _ => true
  | .setoff _ a => Machine.inS16 a
  | .setmom _ _ _ _ => true
  | .momentManual => true
  | .momentYaw sr => Machine.inS16 sr
  | .momentFull phi theta sp sq sr => Machine.sensorsOk phi theta sp sq sr
  | .mix => true
  | .setact _ _ _ _ => true
  | .clrstate => true
  | .reservedC => false
  | .reservedD => false
  | .reservedE => false
  | .reset => true
  | .momentReservedSel3 => false
  | .momentReservedSel4to7 _ => false
  | .pkt _ => true
  | .loadcmd => true
  | .zeroact => true
  | .tickManual => true
  | .tickYaw sr => Machine.inS16 sr
  | .tickFull phi theta sp sq sr => Machine.sensorsOk phi theta sp sq sr
  | .pushframe _ => true
  | .sendcmd _ _ _ _ _ _ => true

end Sys2Proof
end

