-- ==== Sys2Proof/Decode.lean ====
section
/-! DEFINITION. The decoder of requests and frames (30_encoding.md rules R61, R65 to R68, R70), total and rejecting by
name, and after it the encoder written from the same tables. -/

namespace Sys2Proof

/-- The ports of a request (R65). -/
structure Ports where
  op : BitVec 4
  sel : BitVec 3
  dir : BitVec 1
  a : S32
  b : S32
  c : S32
  d : S32
  e : S32
  deriving DecidableEq, Repr

/-- The fields of the packing of R68. -/
def unpack (q : RequestWord) : Ports where
  op := q.extractLsb' 164 4
  sel := q.extractLsb' 161 3
  dir := q.extractLsb' 160 1
  a := q.extractLsb' 128 32
  b := q.extractLsb' 96 32
  c := q.extractLsb' 64 32
  d := q.extractLsb' 32 32
  e := q.extractLsb' 0 32

/-- `Q = {op, sel, dir, a, b, c, d, e}` (R68). -/
def pack (p : Ports) : RequestWord :=
  p.op ++ p.sel ++ p.dir ++ p.a ++ p.b ++ p.c ++ p.d ++ p.e

/-- Why the decoder gives no operation. -/
inductive Reject where
  /-- A reserved selector code of SETGAIN, GADJ or SETOFF (R67, R70). -/
  | reservedSelector (op : BitVec 4) (sel : BitVec 3)
  deriving DecidableEq, Repr

/-- The gain selector (R67); 3 to 7 are reserved. -/
def gainOfSel : BitVec 3 → Option Gain
  | 0#3 => some .p
  | 1#3 => some .p1
  | 2#3 => some .p2
  | _ => none

/-- The offset selector (R67); 5 to 7 are reserved. -/
def offsetOfSel : BitVec 3 → Option Offset
  | 0#3 => some .pOff
  | 1#3 => some .qOff
  | 2#3 => some .rOff
  | 3#3 => some .phiOff
  | 4#3 => some .thetaOff
  | _ => none

/-- The direction code (R65). -/
def dirOfBit : BitVec 1 → Dir
  | 0#1 => .up
  | 1#1 => .down

/-- MOMENT by its policy selector (R67). -/
def decodeMoment (p : Ports) : Instr :=
  match p.sel with
  | 0#3 => .momentManual
  | 1#3 => .momentYaw p.e
  | 2#3 => .momentFull p.a p.b p.c p.d p.e
  | 3#3 => .momentReservedSel3
  | 4#3 => .momentReservedSel4to7 0
  | 5#3 => .momentReservedSel4to7 1
  | 6#3 => .momentReservedSel4to7 2
  | 7#3 => .momentReservedSel4to7 3

/-- The operation by `op` alone (R66, R68); an operand the operation does not use is ignored whatever it holds (R67).
The last arm is `op` 0xF, the one code of sixteen the others leave (`Tests.test_control_bytes`). -/
def decodePorts (p : Ports) : Except Reject Instr :=
  match p.op with
  | 0x0#4 => .ok .nop
  | 0x1#4 => .ok (.push p.a)
  | 0x2#4 => .ok .decode
  | 0x3#4 => .ok (.setcmd p.a p.b p.c p.d)
  | 0x4#4 =>
    match gainOfSel p.sel with
    | some g => .ok (.setgain g p.a)
    | none => .error (.reservedSelector p.op p.sel)
  | 0x5#4 =>
    match gainOfSel p.sel with
    | some g => .ok (.gadj g (dirOfBit p.dir))
    | none => .error (.reservedSelector p.op p.sel)
  | 0x6#4 =>
    match offsetOfSel p.sel with
    | some o => .ok (.setoff o p.a)
    | none => .error (.reservedSelector p.op p.sel)
  | 0x7#4 => .ok (.setmom p.a p.b p.c p.d)
  | 0x8#4 => .ok (decodeMoment p)
  | 0x9#4 => .ok .mix
  | 0xA#4 => .ok (.setact p.a p.b p.c p.d)
  | 0xB#4 => .ok .clrstate
  | 0xC#4 => .ok .reservedC
  | 0xD#4 => .ok .reservedD
  | 0xE#4 => .ok .reservedE
  | _ => .ok .reset

/-- Byte `k` of a frame is `F[63-8k : 56-8k]` (R61). -/
def frameOfWord (w : FrameWord) : Frame where
  header := w.extractLsb' 56 8
  mode := w.extractLsb' 48 8
  gain := w.extractLsb' 40 8
  lift := w.extractLsb' 32 8
  pitch := w.extractLsb' 24 8
  roll := w.extractLsb' 16 8
  yaw := w.extractLsb' 8 8
  chk := w.extractLsb' 0 8

/-- The string `F[63:0]` of a frame (R61). -/
def wordOfFrame (f : Frame) : FrameWord :=
  f.header ++ f.mode ++ f.gain ++ f.lift ++ f.pitch ++ f.roll ++ f.yaw ++ f.chk

/-- The decoder. -/
def decode : Code → Except Reject Instr
  | .req q => decodePorts (unpack q)
  | .frame w => .ok (.pkt (frameOfWord w))
  | .line i => .ok i

/-- The selector of a gain (R67). -/
def selOfGain : Gain → BitVec 3
  | .p => 0
  | .p1 => 1
  | .p2 => 2

/-- The selector of an offset (R67). -/
def selOfOffset : Offset → BitVec 3
  | .pOff => 0
  | .qOff => 1
  | .rOff => 2
  | .phiOff => 3
  | .thetaOff => 4

/-- The code of a direction (R65). -/
def bitOfDir : Dir → BitVec 1
  | .up => 0
  | .down => 1

/-- A request with the given control byte and operands; what is not given is zero (R68, the canonical form). -/
def request (op : BitVec 4) (sel : BitVec 3 := 0) (dir : BitVec 1 := 0) (a b c d e : S32 := 0) : Code :=
  .req (pack ⟨op, sel, dir, a, b, c, d, e⟩)

/-- The code of an operation: its canonical request word (R68), its frame word (R61), or its program line where it has
no code (R73). -/
def encode : Instr → Code
  | .nop => request 0x0
  | .push a => request 0x1 (a := a)
  | .decode => request 0x2
  | .setcmd a b c d => request 0x3 (a := a) (b := b) (c := c) (d := d)
  | .setgain g a => request 0x4 (sel := selOfGain g) (a := a)
  | .gadj g dir => request 0x5 (sel := selOfGain g) (dir := bitOfDir dir)
  | .setoff o a => request 0x6 (sel := selOfOffset o) (a := a)
  | .setmom a b c d => request 0x7 (a := a) (b := b) (c := c) (d := d)
  | .momentManual => request 0x8 (sel := 0)
  | .momentYaw sr => request 0x8 (sel := 1) (e := sr)
  | .momentFull phi theta sp sq sr =>
    request 0x8 (sel := 2) (a := phi) (b := theta) (c := sp) (d := sq) (e := sr)
  | .mix => request 0x9
  | .setact a b c d => request 0xA (a := a) (b := b) (c := c) (d := d)
  | .clrstate => request 0xB
  | .reservedC => request 0xC
  | .reservedD => request 0xD
  | .reservedE => request 0xE
  | .reset => request 0xF
  | .momentReservedSel3 => request 0x8 (sel := 3)
  | .momentReservedSel4to7 k => request 0x8 (sel := 1#1 ++ k)
  | .pkt f => .frame (wordOfFrame f)
  | .loadcmd => .line .loadcmd
  | .zeroact => .line .zeroact
  | .tickManual => .line .tickManual
  | .tickYaw sr => .line (.tickYaw sr)
  | .tickFull phi theta sp sq sr => .line (.tickFull phi theta sp sq sr)
  | .pushframe f => .line (.pushframe f)
  | .sendcmd mode gain lift pitch roll yaw => .line (.sendcmd mode gain lift pitch roll yaw)

/-- A row of spec/opcode_table.json as a code: 64 bits are a frame (R61), any other length is a request `Q` (R68). -/
def codeOfTableWord (nbits w : Nat) : Code :=
  if nbits = 64 then .frame (BitVec.ofNat 64 w) else .req (BitVec.ofNat 168 w)

/-- What the decoder reads from an instruction whose bits are `w`, numbered as spec/opcode_table.json numbers them. -/
def decodeTableWord (nbits w : Nat) : Option Instr :=
  match decode (codeOfTableWord nbits w) with
  | .ok i => some i
  | .error _ => none

end Sys2Proof
end

