-- ==== Sys2Proof/Machine/State.lean ====
section
/-! DEFINITION. The state of QCMX. `Block` is "the complete state of QCMX" of 10_state.md rule R10, field for field.
`State` puts beside it what rule R26 calls the inputs and the outputs of a step and no state: the host's interface
gives a step nothing but a state and takes nothing else back, so the configuration record, the requests that wait and
the response of the last operation stand in `State`, outside `Block` (assumption log 1, 2, 3). -/

namespace Sys2Proof.Machine

/-- Lift, pitch, roll and yaw, in the order of R8, each `s8`. -/
structure Axes where
  lift : S8
  pitch : S8
  roll : S8
  yaw : S8
  deriving DecidableEq, Repr

/-- The command snapshot (R12): `CMD_MODE`, `CMD_GAIN`, and `CMD_LIFT` to `CMD_YAW` after `srest`. -/
structure Snapshot where
  mode : Byte
  gain : Byte
  axes : Axes
  deriving DecidableEq, Repr

/-- The derived quantities `Z`, `L`, `M`, `N` (R15), in the order of R8, each `s32`. -/
structure Moments where
  z : S32
  l : S32
  m : S32
  n : S32
  deriving DecidableEq, Repr

/-- The gains `P`, `P1`, `P2` (R16): 8-bit registers, unsigned, whose bit 7 reads 0 in every state a run reaches. -/
structure Gains where
  p : Byte
  p1 : Byte
  p2 : Byte
  deriving DecidableEq, Repr

/-- The offsets (R17), each `s16`. -/
structure Offsets where
  pOff : S16
  qOff : S16
  rOff : S16
  phiOff : S16
  thetaOff : S16
  deriving DecidableEq, Repr

/-- Four duties, one per actuator (R18, R19), each `u16`. -/
structure Duties where
  d0 : U16
  d1 : U16
  d2 : U16
  d3 : U16
  deriving DecidableEq, Repr

/-- The complete state of QCMX (R10). -/
structure Block where
  /-- `RXQ` (R11), oldest byte first. -/
  rxq : List Byte
  /-- `CMD_MODE` to `CMD_YAW` (R12). -/
  cmd : Snapshot
  /-- `LIFT`, `PITCH`, `ROLL`, `YAW` (R13). -/
  cur : Axes
  /-- `PLIFT`, `PPITCH`, `PROLL`, `PYAW` (R14). -/
  prev : Axes
  /-- `Z`, `L`, `M`, `N` (R15). -/
  mom : Moments
  /-- `P`, `P1`, `P2` (R16). -/
  gains : Gains
  /-- `P_OFF` to `THETA_OFF` (R17). -/
  offs : Offsets
  /-- `AE[0..3]` (R18). -/
  ae : Duties
  /-- `ACT_OUT[0..3]` (R19). -/
  actOut : Duties
  /-- `ACT_HIST` (R19), oldest first. -/
  actHist : List Duties
  /-- `ACC_HIST` (R20). -/
  accHist : Nat
  deriving DecidableEq, Repr

/-- The response of an operation (R65): each bit 0 for an operation that does not define it. -/
structure Response where
  valid : Bool
  changed : Bool
  deriving DecidableEq, Repr

/-- The block, with the inputs and the output of a step (R26). -/
structure State where
  /-- The configuration record (R4): an input of every step that nothing changes. -/
  cfg : Config
  /-- The requests of the host and of the transport that wait, in the order in which they will be performed (R51). -/
  inbox : List Code
  /-- R10. -/
  block : Block
  /-- The response of the operation performed last (R65). -/
  resp : Response
  deriving DecidableEq, Repr

/-- QCMX has no fault: "no condition of QCMX saves state, changes a mode or a mask" (60_exceptions.md rule R167), and
the drops of DECODE are ordinary results (R160). No constructor, so nothing raises one (safe). -/
inductive Fault where
  deriving DecidableEq, Repr

/-- Why a step has no next state. Each is a refusal of 30_encoding.md rule R70, and safe: no claim can be proved of a
program that contains one (60_exceptions.md rule R163). -/
inductive Refusal where
  /-- No meaning given yet; raised by no arm of this model (safe). -/
  | notModelled (mnemonic : String)
  /-- `op` 0xC, 0xD or 0xE (R70); raised by the three reserved operations (safe). -/
  | reservedOperation (op : BitVec 4)
  /-- A reserved `sel` (R67, R70); raised for SETGAIN, GADJ and SETOFF by the step's decoder, and by the two reserved
  forms of MOMENT (safe). -/
  | reservedSelector (op : BitVec 4) (sel : BitVec 3)
  /-- An operand outside its stated range (R66, R70); raised by PUSH, SETOFF, MOMENT.YAW and MOMENT.FULL and by TICK.YAW
  and TICK.FULL, whose MOMENT it is (safe). -/
  | operandOutOfRange (op : BitVec 4)
  deriving DecidableEq, Repr

/-- No response: the outputs of an operation that defines none (R65). -/
def Response.none : Response := ⟨false, false⟩

/-- Four axes at zero. -/
def Axes.zero : Axes := ⟨0, 0, 0, 0⟩

/-- Four moments at zero. -/
def Moments.zero : Moments := ⟨0, 0, 0, 0⟩

/-- Four duties at zero. -/
def Duties.zero : Duties := ⟨0, 0, 0, 0⟩

/-- The reset values of R25 and of RESET (R180). -/
def Block.reset (c : Config) : Block where
  rxq := []
  cmd := ⟨0x00, 0x00, Axes.zero⟩
  cur := Axes.zero
  prev := Axes.zero
  mom := Moments.zero
  gains := ⟨BitVec.ofInt 8 c.pRst, BitVec.ofInt 8 c.p1Rst, BitVec.ofInt 8 c.p2Rst⟩
  offs := ⟨0, 0, 0, 0, 0⟩
  ae := Duties.zero
  actOut := Duties.zero
  actHist := []
  accHist := 0

/-- The machine right after reset under a given configuration, with no request waiting. -/
def State.boot (c : Config) : State where
  cfg := c
  inbox := []
  block := Block.reset c
  resp := Response.none

/-- The machine right after reset: "The initial state of a model is the state after RESET" (R180). -/
def State.reset : State := State.boot Config.installed

end Sys2Proof.Machine
end

