-- ==== Sys2Proof/Machine/Flags.lean ====
section
/-! DEFINITION. The results of one bit. QCMX has no status register and no condition codes (10_state.md rule R21): the
only ones are the responses `valid` and `changed`, stored nowhere in the block. -/

namespace Sys2Proof.Machine

/-- `changed` of SETCMD (42_saturation_and_command.md rules R144, R147): some axis differs from the old one. -/
def axesChanged (old new : Axes) : Bool :=
  new.lift != old.lift || new.pitch != old.pitch || new.roll != old.roll || new.yaw != old.yaw

/-- The response of DECODE (R87). -/
def respValid (v : Bool) : Response := ⟨v, false⟩

/-- The response of SETCMD and LOADCMD (R144, R145). -/
def respChanged (ch : Bool) : Response := ⟨false, ch⟩

end Sys2Proof.Machine
end

