-- ==== Sys2Proof/Machine/Ops.lean ====
section
/-! DEFINITION. The named operations over the state: the queue primitives (20_memory.md rules R41 to R44), the output
stage (R48), the acceptance event (40_codec.md rule R92), the writes of each register group, the ends of an operation,
and the fetch of the next request. QCMX takes no exception and returns from none (60_exceptions.md rules R167, R168),
so there is no operation for either. -/

namespace Sys2Proof.Machine

/-- The outcome of a step of this machine. -/
abbrev Out := Host.Outcome State Fault Refusal

/-- `RxAppend(b)` (R41). -/
def Block.rxAppend (k : Block) (b : Byte) : Block := { k with rxq := k.rxq ++ [b] }

/-- Eight `RxAppend`, the header byte of the frame first (R73, PUSHFRAME). -/
def Block.rxAppendFrame (k : Block) (f : Frame) : Block := (frameBytes f).foldl Block.rxAppend k

/-- `RxFlush()` (R43). -/
def Block.rxFlush (k : Block) : Block := { k with rxq := [] }

/-- `RxEmpty()` (R44). -/
def rxEmpty (q : List Byte) : Bool := q.isEmpty

/-- `RxPop()` (R42): the oldest byte and the queue without it; nothing on an empty queue, where a pop is not legal. -/
def rxPop : List Byte → Option (Byte × List Byte)
  | [] => none
  | b :: rest => some (b, rest)

/-- The frame put at the oldest end of `RXQ`, where DECODE reads (R23). -/
def Block.frameAtHead (k : Block) (f : Frame) : Block := { k with rxq := frameBytes f ++ k.rxq }

/-- `ActPush` (R48). -/
def Block.actPush (k : Block) (q : Duties) : Block := { k with actOut := q, actHist := k.actHist ++ [q] }

/-- The write of `AE` and the push that always follows it (R125, R126, R154). -/
def Block.writeAct (k : Block) (q : Duties) : Block := { k with ae := q }.actPush q

/-- The six snapshot registers at once, and `emit accept` (R91, R92). -/
def Block.acceptPacket (k : Block) (p : Snapshot) : Block := { k with cmd := p, accHist := k.accHist + 1 }

/-- The new commanded axes; the old ones become the previous (R144). -/
def Block.writeAxes (k : Block) (new : Axes) : Block := { k with prev := k.cur, cur := new }

/-- The four derived quantities (R112, R113). -/
def Block.writeMoments (k : Block) (m : Moments) : Block := { k with mom := m }

/-- The commanded and derived state at zero (R156). -/
def Block.clear (k : Block) : Block :=
  { k with cur := Axes.zero, prev := Axes.zero, mom := Moments.zero }

/-- Reads the gain a selector names (R67). -/
def Gains.get (gs : Gains) : Gain → Byte
  | .p => gs.p
  | .p1 => gs.p1
  | .p2 => gs.p2

/-- Writes the gain a selector names (R67). -/
def Gains.set (gs : Gains) (v : Byte) : Gain → Gains
  | .p => { gs with p := v }
  | .p1 => { gs with p1 := v }
  | .p2 => { gs with p2 := v }

/-- Writes one gain through its clamp, `G <- sat(v, 0, 127)` (R16, R142, R148, R150). -/
def Block.writeGain (k : Block) (g : Gain) (v : Int) : Block :=
  { k with gains := k.gains.set (BitVec.ofInt 8 (sat v 0 127)) g }

/-- Reads the offset a selector names (R67). -/
def Offsets.get (os : Offsets) : Offset → S16
  | .pOff => os.pOff
  | .qOff => os.qOff
  | .rOff => os.rOff
  | .phiOff => os.phiOff
  | .thetaOff => os.thetaOff

/-- Writes the offset a selector names (R67). -/
def Offsets.set (os : Offsets) (v : S16) : Offset → Offsets
  | .pOff => { os with pOff := v }
  | .qOff => { os with qOff := v }
  | .rOff => { os with rOff := v }
  | .phiOff => { os with phiOff := v }
  | .thetaOff => { os with thetaOff := v }

/-- Writes one offset (R152). -/
def Block.writeOffset (k : Block) (o : Offset) (v : S16) : Block := { k with offs := k.offs.set v o }

/-- The state with a new block and a response; the configuration and the waiting requests stay. -/
def State.put (s : State) (k : Block) (r : Response) : State := { s with block := k, resp := r }

/-- The end of an operation: all its writes together (R7), and its response (R65). -/
def done (s : State) (k : Block) (r : Response) : Out := .next (s.put k r)

/-- An operation whose operand must be in range (R70): refused otherwise, with no next state. -/
def guarded (ok : Bool) (op : BitVec 4) (o : Out) : Out :=
  if ok then o else .refused (.operandOutOfRange op)

/-- A step with no request: the block "is otherwise idle" (R23), as in NOP (R157) (assumption log 4). -/
def idle (s : State) : Out := done s s.block Response.none

/-- The oldest waiting request and the state without it. -/
def fetch (s : State) : Option (Code × State) :=
  match s.inbox with
  | [] => none
  | code :: rest => some (code, { s with inbox := rest })

/-- The refusal that answers a request the decoder rejects (R70). -/
def refusalOf : Reject → Refusal
  | .reservedSelector op sel => .reservedSelector op sel

/-- A code put where the next step fetches. -/
def State.withCode (s : State) (code : Code) : State := { s with inbox := code :: s.inbox }

end Sys2Proof.Machine
end

