-- ==== Sys2Proof/Machine/Codec.lean ====
section
/-! DEFINITION. The codec family (40_codec.md): PUSH, DECODE, the frame as an instruction (PKT), and the
pseudo-operations PUSHFRAME and SENDCMD (30_encoding.md rule R73). -/

namespace Sys2Proof.Machine

/-- The labels of 60_exceptions.md rule R160: names for a reader and for tests, recorded nowhere. -/
inductive DropReason where
  | empty
  | nosync
  | short
  | chk
  deriving DecidableEq, Repr

/-- What one DECODE finds in the queue. -/
inductive Verdict where
  | dropped (why : DropReason)
  | accepted (p : Snapshot)
  deriving DecidableEq, Repr

/-- Step 1 of R87, the hunt (R88): pops bytes until one equals `HEADER`; the bytes behind it, or nothing. -/
def hunt (header : Byte) : List Byte → Option (List Byte)
  | [] => none
  | b :: rest => if b = header then some rest else hunt header rest

/-- Step 2 of R87 (R89): seven pops in field order; nothing when fewer than seven bytes remain. The header byte is the
sentinel the hunt has removed. -/
def collect (header : Byte) (q : List Byte) : Option Frame := do
  let (m, q) ← rxPop q
  let (g, q) ← rxPop q
  let (l, q) ← rxPop q
  let (p, q) ← rxPop q
  let (r, q) ← rxPop q
  let (y, q) ← rxPop q
  let (c, _) ← rxPop q
  pure ⟨header, m, g, l, p, r, y, c⟩

/-- What an accepted frame writes to the snapshot (R91): mode and gain-adjust as received, the axes after `srest`. -/
def snapshotOf (f : Frame) : Snapshot :=
  ⟨f.mode, f.gain, ⟨srest f.lift, srest f.pitch, srest f.roll, srest f.yaw⟩⟩

/-- Steps 1, 2 and 4 of R87, in the order of 60_exceptions.md rule R166. -/
def examine (header : Byte) (q : List Byte) : Verdict :=
  if rxEmpty q then .dropped .empty
  else
    match hunt header q with
    | none => .dropped .nosync
    | some rest =>
      match collect header rest with
      | none => .dropped .short
      | some f => if frameChecks f then .accepted (snapshotOf f) else .dropped .chk

/-- The effect of a verdict on the block: the queue is flushed in every case (R93, R94); only an acceptance writes the
snapshot and emits the event (R91, R92). -/
def Block.settle (k : Block) : Verdict → Block
  | .dropped _ => k.rxFlush
  | .accepted p => k.rxFlush.acceptPacket p

/-- The `valid` of a verdict. -/
def Verdict.valid : Verdict → Bool
  | .dropped _ => false
  | .accepted _ => true

/-- DECODE on a block (R87). -/
def decodeOp (s : State) (k : Block) : Out :=
  done s (k.settle (examine s.cfg.header k.rxq)) (respValid (examine s.cfg.header k.rxq).valid)

/-- PUSH (R86). -/
def execPush (a : S32) (s : State) : Out :=
  guarded (inU8 a) 0x1 (done s (s.block.rxAppend (a.extractLsb' 0 8)) Response.none)

/-- DECODE (R87). -/
def execDecode (s : State) : Out := decodeOp s s.block

/-- PKT (R60, R87): the frame at the oldest end of `RXQ`, and the DECODE that reads it (assumption log 5). -/
def execPkt (f : Frame) (s : State) : Out := decodeOp s (s.block.frameAtHead f)

/-- PUSHFRAME (R73): eight PUSH, `b0` first. -/
def execPushframe (f : Frame) (s : State) : Out := done s (s.block.rxAppendFrame f) Response.none

/-- SENDCMD (R73): PUSHFRAME of the eight bytes of ENCODE (R96). -/
def execSendcmd (mode gain : Byte) (lift pitch roll yaw : BitVec 7) (s : State) : Out :=
  done s (s.block.rxAppendFrame (encodePayload s.cfg mode gain lift pitch roll yaw)) Response.none

end Sys2Proof.Machine
end

