-- ==== Sys2Proof/Machine/Mixer.lean ====
section
/-! DEFINITION. The mixer family (41_mixer.md): SETMOM, the three policies of MOMENT, MIX, and the pseudo-operations
TICK. Arithmetic is on integers and exact (R110); a result is narrowed once, when its register is written. -/

namespace Sys2Proof.Machine

/-- The yaw moment with feedback, `P * (K_RSET * YAW - (sr - R_OFF))` (R116, R117). -/
def yawFeedback (c : Config) (k : Block) (sr : S32) : Int :=
  (k.gains.p.toNat : Int) * (c.kRset * k.cur.yaw.toInt - (sr.toInt - k.offs.rOff.toInt))

/-- The roll or pitch moment with feedback, `P1 * (K_ASET * axis - (angle - off)) - P2 * (rate - off)` (R117). -/
def tiltFeedback (c : Config) (gs : Gains) (axis : S8) (angle rate : S32) (angleOff rateOff : S16) : Int :=
  (gs.p1.toNat : Int) * (c.kAset * axis.toInt - (angle.toInt - angleOff.toInt)) -
    (gs.p2.toNat : Int) * (rate.toInt - rateOff.toInt)

/-- MOMENT.MANUAL (R115). -/
def momentsManual (c : Config) (k : Block) : Moments where
  z := BitVec.ofInt 32 (c.kLift * k.cur.lift.toInt)
  l := BitVec.ofInt 32 (c.kRoll * k.cur.roll.toInt)
  m := BitVec.ofInt 32 (c.kPitch * k.cur.pitch.toInt)
  n := BitVec.ofInt 32 (c.kYaw * k.cur.yaw.toInt)

/-- MOMENT.YAW (R116). -/
def momentsYaw (c : Config) (k : Block) (sr : S32) : Moments where
  z := BitVec.ofInt 32 (c.kLift * k.cur.lift.toInt)
  l := BitVec.ofInt 32 (c.kRoll * k.cur.roll.toInt)
  m := BitVec.ofInt 32 (c.kPitch * k.cur.pitch.toInt)
  n := BitVec.ofInt 32 (yawFeedback c k sr)

/-- MOMENT.FULL (R117). -/
def momentsFull (c : Config) (k : Block) (phi theta sp sq sr : S32) : Moments where
  z := BitVec.ofInt 32 (c.kLift * k.cur.lift.toInt)
  l := BitVec.ofInt 32 (tiltFeedback c k.gains k.cur.roll phi sp k.offs.phiOff k.offs.pOff)
  m := BitVec.ofInt 32 (tiltFeedback c k.gains k.cur.pitch theta sq k.offs.thetaOff k.offs.qOff)
  n := BitVec.ofInt 32 (yawFeedback c k sr)

/-- `s_i` of R122, exact. -/
def laneSum (r : MixRow) (m : Moments) : Int :=
  r.cZ * m.z.toInt + r.cL * m.l.toInt + r.cM * m.m.toInt + r.cN * m.n.toInt

/-- From a sum to a duty: `e_i`, `c_i`, `d_i`, `n_i` of R120 (R122 to R125). -/
def dutyOfSum (c : Config) (sum : Int) : Int :=
  let e := tdiv sum 4 + c.effortBias
  let cl := sat e c.minEffort c.maxEffort
  let d := shr cl c.dutyShift
  sat d 0 c.maxDuty

/-- One lane of MIX (R127), with the gate common to the four (R121). -/
def laneDuty (c : Config) (r : MixRow) (lift : S8) (m : Moments) : U16 :=
  BitVec.ofInt 16 (if 0 < lift.toInt then dutyOfSum c (laneSum r m) else 0)

/-- The four lanes of MIX (R120). -/
def mixDuties (c : Config) (lift : S8) (m : Moments) : Duties where
  d0 := laneDuty c c.mixCoef.r0 lift m
  d1 := laneDuty c c.mixCoef.r1 lift m
  d2 := laneDuty c c.mixCoef.r2 lift m
  d3 := laneDuty c c.mixCoef.r3 lift m

/-- MIX on a block (R120): `AE` written and pushed. -/
def Block.mixed (k : Block) (c : Config) : Block := k.writeAct (mixDuties c k.cur.lift k.mom)

/-- SETMOM (R112). -/
def execSetmom (a b c d : S32) (s : State) : Out :=
  done s (s.block.writeMoments ⟨a, b, c, d⟩) Response.none

/-- MOMENT.MANUAL (R115). -/
def execMomentManual (s : State) : Out :=
  done s (s.block.writeMoments (momentsManual s.cfg s.block)) Response.none

/-- MOMENT.YAW (R116). -/
def execMomentYaw (sr : S32) (s : State) : Out :=
  guarded (inS16 sr) 0x8 (done s (s.block.writeMoments (momentsYaw s.cfg s.block sr)) Response.none)

/-- MOMENT.FULL (R117). -/
def execMomentFull (phi theta sp sq sr : S32) (s : State) : Out :=
  guarded (sensorsOk phi theta sp sq sr) 0x8
    (done s (s.block.writeMoments (momentsFull s.cfg s.block phi theta sp sq sr)) Response.none)

/-- MIX (R120). -/
def execMix (s : State) : Out := done s (s.block.mixed s.cfg) Response.none

/-- TICK.MANUAL (R130): MOMENT.MANUAL, then MIX. -/
def execTickManual (s : State) : Out :=
  done s ((s.block.writeMoments (momentsManual s.cfg s.block)).mixed s.cfg) Response.none

/-- TICK.YAW (R130): MOMENT.YAW, then MIX. -/
def execTickYaw (sr : S32) (s : State) : Out :=
  guarded (inS16 sr) 0x8
    (done s ((s.block.writeMoments (momentsYaw s.cfg s.block sr)).mixed s.cfg) Response.none)

/-- TICK.FULL (R130): MOMENT.FULL, then MIX. -/
def execTickFull (phi theta sp sq sr : S32) (s : State) : Out :=
  guarded (sensorsOk phi theta sp sq sr) 0x8
    (done s ((s.block.writeMoments (momentsFull s.cfg s.block phi theta sp sq sr)).mixed s.cfg) Response.none)

/-- MOMENT with `sel` 3: "have no meaning"; refused (R67, R70). -/
def execMomentReservedSel3 (_ : State) : Out := .refused (.reservedSelector 0x8 3)

/-- MOMENT with `sel` 4 to 7: "have no meaning"; refused (R67, R70). -/
def execMomentReservedSel4to7 (k : BitVec 2) (_ : State) : Out := .refused (.reservedSelector 0x8 (1#1 ++ k))

end Sys2Proof.Machine
end

