-- ==== Sys2Proof/Machine/Saturation.lean ====
section
/-! DEFINITION. The saturation family (42_saturation_and_command.md): SETCMD and LOADCMD, SETGAIN, GADJ, SETOFF, SETACT
and ZEROACT, CLRSTATE, NOP. -/

namespace Sys2Proof.Machine

/-- The commanded-value saturation (R142, first instance). -/
def satAxis (v : Int) : S8 := BitVec.ofInt 8 (sat v (-128) 127)

/-- The duty clamp of SETACT (R142, last instance). -/
def satDuty (c : Config) (v : Int) : U16 := BitVec.ofInt 16 (sat v 0 c.maxDuty)

/-- SETCMD on integers (R144): LOADCMD gives it the snapshot's (R73). -/
def commandOp (lift pitch roll yaw : Int) (s : State) : Out :=
  let new : Axes := ⟨satAxis lift, satAxis pitch, satAxis roll, satAxis yaw⟩
  done s (s.block.writeAxes new) (respChanged (axesChanged s.block.cur new))

/-- SETACT on integers (R154). -/
def actuatorOp (a b c d : Int) (s : State) : Out :=
  done s (s.block.writeAct ⟨satDuty s.cfg a, satDuty s.cfg b, satDuty s.cfg c, satDuty s.cfg d⟩) Response.none

/-- NOP (R157). -/
def execNop (s : State) : Out := done s s.block Response.none

/-- SETCMD (R144). -/
def execSetcmd (a b c d : S32) (s : State) : Out := commandOp a.toInt b.toInt c.toInt d.toInt s

/-- LOADCMD (R145). -/
def execLoadcmd (s : State) : Out :=
  commandOp s.block.cmd.axes.lift.toInt s.block.cmd.axes.pitch.toInt s.block.cmd.axes.roll.toInt
    s.block.cmd.axes.yaw.toInt s

/-- SETGAIN (R148). -/
def execSetgain (g : Gain) (a : S32) (s : State) : Out := done s (s.block.writeGain g a.toInt) Response.none

/-- GADJ (R150). -/
def execGadj (g : Gain) (dir : Dir) (s : State) : Out :=
  match dir with
  | .up => done s (s.block.writeGain g ((s.block.gains.get g).toNat + 1)) Response.none
  | .down => done s (s.block.writeGain g ((s.block.gains.get g).toNat - 1)) Response.none

/-- SETOFF (R152). -/
def execSetoff (o : Offset) (a : S32) (s : State) : Out :=
  guarded (inS16 a) 0x6 (done s (s.block.writeOffset o (a.extractLsb' 0 16)) Response.none)

/-- SETACT (R154). -/
def execSetact (a b c d : S32) (s : State) : Out := actuatorOp a.toInt b.toInt c.toInt d.toInt s

/-- ZEROACT (R155): SETACT 0, 0, 0, 0. -/
def execZeroact (s : State) : Out := actuatorOp 0 0 0 0 s

/-- CLRSTATE (R156). -/
def execClrstate (s : State) : Out := done s s.block.clear Response.none

end Sys2Proof.Machine
end

