-- ==== Sys2Proof/Machine/System.lean ====
section
/-! DEFINITION. RESET (70_reset_and_hazards.md rule R180) and the three reserved operation codes (30_encoding.md rule
R70). -/

namespace Sys2Proof.Machine

/-- RESET (R180). The requests that wait are the host's and the transport's, not the block's, and stay (assumption
log 8). -/
def execReset (s : State) : Out := done s (Block.reset s.cfg) Response.none

/-- `op` 0xC: "have no meaning"; refused (R70). -/
def execReservedC (_ : State) : Out := .refused (.reservedOperation 0xC)

/-- `op` 0xD: "have no meaning"; refused (R70). -/
def execReservedD (_ : State) : Out := .refused (.reservedOperation 0xD)

/-- `op` 0xE: "have no meaning"; refused (R70). -/
def execReservedE (_ : State) : Out := .refused (.reservedOperation 0xE)

end Sys2Proof.Machine
end

