-- ==== Sys2Proof/Machine/Dispatch.lean ====
section
/-! DEFINITION. One arm per operation, each one call of its meaning. -/

namespace Sys2Proof.Machine

/-- One operation on a state: atomic, whole (20_memory.md rule R51). -/
def exec (i : Instr) (s : State) : Host.Outcome State Fault Refusal :=
  match i with
  | .nop => Sys2Proof.Machine.execNop s
  | .push a => Sys2Proof.Machine.execPush a s
  | .decode => Sys2Proof.Machine.execDecode s
  | .setcmd a b c d => Sys2Proof.Machine.execSetcmd a b c d s
  | .setgain g a => Sys2Proof.Machine.execSetgain g a s
  | .gadj g dir => Sys2Proof.Machine.execGadj g dir s
  | .setoff o a => Sys2Proof.Machine.execSetoff o a s
  | .setmom a b c d => Sys2Proof.Machine.execSetmom a b c d s
  | .momentManual => Sys2Proof.Machine.execMomentManual s
  | .momentYaw sr => Sys2Proof.Machine.execMomentYaw sr s
  | .momentFull phi theta sp sq sr => Sys2Proof.Machine.execMomentFull phi theta sp sq sr s
  | .mix => Sys2Proof.Machine.execMix s
  | .setact a b c d => Sys2Proof.Machine.execSetact a b c d s
  | .clrstate => Sys2Proof.Machine.execClrstate s
  | .reservedC => Sys2Proof.Machine.execReservedC s
  | .reservedD => Sys2Proof.Machine.execReservedD s
  | .reservedE => Sys2Proof.Machine.execReservedE s
  | .reset => Sys2Proof.Machine.execReset s
  | .momentReservedSel3 => Sys2Proof.Machine.execMomentReservedSel3 s
  | .momentReservedSel4to7 k => Sys2Proof.Machine.execMomentReservedSel4to7 k s
  | .pkt f => Sys2Proof.Machine.execPkt f s
  | .loadcmd => Sys2Proof.Machine.execLoadcmd s
  | .zeroact => Sys2Proof.Machine.execZeroact s
  | .tickManual => Sys2Proof.Machine.execTickManual s
  | .tickYaw sr => Sys2Proof.Machine.execTickYaw sr s
  | .tickFull phi theta sp sq sr => Sys2Proof.Machine.execTickFull phi theta sp sq sr s
  | .pushframe f => Sys2Proof.Machine.execPushframe f s
  | .sendcmd mode gain lift pitch roll yaw => Sys2Proof.Machine.execSendcmd mode gain lift pitch roll yaw s

end Sys2Proof.Machine
end

