-- ==== Sys2Proof/Machine/Step.lean ====
section
/-! DEFINITION. One step: the oldest waiting request, decoded and performed whole (20_memory.md rule R51); with no
request waiting, an idle step (10_state.md rule R23). -/

namespace Sys2Proof.Machine

/-- One step. It has three outcomes by type; QCMX has no fault, so it answers a next state or a refusal (R70). -/
def step (s : State) : Host.Outcome State Fault Refusal :=
  match fetch s with
  | none => idle s
  | some (code, s') =>
    match decode code with
    | .ok i => exec i s'
    | .error r => .refused (refusalOf r)

/-- `s` with one row of spec/opcode_table.json as the request the very next step performs: a request word as it is, a
frame word as the frame at the read position that is decoded (assumption log 2, 5, 11). -/
def State.withFetchWord (s : State) (nbits w : Nat) : State := s.withCode (codeOfTableWord nbits w)

end Sys2Proof.Machine
end

