-- ==== Sys2Proof/Safety.lean ====
section
/-! DEFINITION. What claims about QCMX are stated in: the invariant of 10_state.md rule R22, the access table of rule
R27, the agents of 60_exceptions.md rule R170, what a pseudo-operation expands to (30_encoding.md rule R73), the run of
a program, and the host's obligations of 70_reset_and_hazards.md rules R184 and R188. -/

namespace Sys2Proof.Machine

/-! ### The invariant -/

/-- A duty in `0..MAX_DUTY` (R18). -/
abbrev dutyOk (c : Config) (d : U16) : Prop := (d.toNat : Int) ≤ c.maxDuty

/-- Four duties in `0..MAX_DUTY` (R18, R19). -/
abbrev Duties.Ok (c : Config) (q : Duties) : Prop :=
  dutyOk c q.d0 ∧ dutyOk c q.d1 ∧ dutyOk c q.d2 ∧ dutyOk c q.d3

/-- The three gains in 0..127 (R16). -/
abbrev Gains.Ok (gs : Gains) : Prop := gs.p.toNat ≤ 127 ∧ gs.p1.toNat ≤ 127 ∧ gs.p2.toNat ≤ 127

/-- The tuple presented last, or the zeros reset leaves when none was (R19, R25). -/
def lastPushed (hist : List Duties) : Duties := hist.getLast?.getD Duties.zero

/-- R22 for the registers whose type does not already give their range (the signed registers are two's complement of
their width, so theirs holds by type), with what R19 says of the output stage: it holds the tuple presented last. That
`AE` and the output stage agree is the model's own addition: every operation that writes `AE` pushes it. -/
abbrev State.Inv (s : State) : Prop :=
  s.block.gains.Ok ∧ s.block.ae.Ok s.cfg ∧ s.block.actOut.Ok s.cfg ∧ (∀ q ∈ s.block.actHist, q.Ok s.cfg) ∧
    s.block.actOut = lastPushed s.block.actHist ∧ s.block.ae = s.block.actOut

/-! ### The access table -/

/-- The columns of the table of R27. -/
inductive Group where
  | rxq
  | cmd
  | axes
  | prevAxes
  | moments
  | gains
  | offsets
  | ae
  | output
  | accHist
  deriving DecidableEq, Repr

/-- Two blocks agree on a column. -/
def Group.Agree (k k' : Block) : Group → Prop
  | .rxq => k.rxq = k'.rxq
  | .cmd => k.cmd = k'.cmd
  | .axes => k.cur = k'.cur
  | .prevAxes => k.prev = k'.prev
  | .moments => k.mom = k'.mom
  | .gains => k.gains = k'.gains
  | .offsets => k.offs = k'.offs
  | .ae => k.ae = k'.ae
  | .output => k.actOut = k'.actOut ∧ k.actHist = k'.actHist
  | .accHist => k.accHist = k'.accHist

end Sys2Proof.Machine

namespace Sys2Proof

open Machine

/-- The columns marked `w` (R27); a pseudo-operation and PKT have the marks of what they expand to. -/
def Instr.writes : Instr → List Group
  | .nop => []
  | .push _ => [.rxq]
  | .decode => [.rxq, .cmd, .accHist]
  | .setcmd _ _ _ _ => [.axes, .prevAxes]
  | .setgain _ _ => [.gains]
  | .gadj _ _ => [.gains]
  | .setoff _ _ => [.offsets]
  | .setmom _ _ _ _ => [.moments]
  | .momentManual => [.moments]
  | .momentYaw _ => [.moments]
  | .momentFull _ _ _ _ _ => [.moments]
  | .mix => [.ae, .output]
  | .setact _ _ _ _ => [.ae, .output]
  | .clrstate => [.axes, .prevAxes, .moments]
  | .reservedC => []
  | .reservedD => []
  | .reservedE => []
  | .reset => [.rxq, .cmd, .axes, .prevAxes, .moments, .gains, .offsets, .ae, .output, .accHist]
  | .momentReservedSel3 => []
  | .momentReservedSel4to7 _ => []
  | .pkt _ => [.rxq, .cmd, .accHist]
  | .loadcmd => [.axes, .prevAxes]
  | .zeroact => [.ae, .output]
  | .tickManual => [.moments, .ae, .output]
  | .tickYaw _ => [.moments, .ae, .output]
  | .tickFull _ _ _ _ _ => [.moments, .ae, .output]
  | .pushframe _ => [.rxq]
  | .sendcmd _ _ _ _ _ _ => [.rxq]

/-- The columns marked `r` (R27). -/
def Instr.reads : Instr → List Group
  | .nop => []
  | .push _ => []
  | .decode => [.rxq]
  | .setcmd _ _ _ _ => [.axes]
  | .setgain _ _ => []
  | .gadj _ _ => [.gains]
  | .setoff _ _ => []
  | .setmom _ _ _ _ => []
  | .momentManual => [.axes, .gains, .offsets]
  | .momentYaw _ => [.axes, .gains, .offsets]
  | .momentFull _ _ _ _ _ => [.axes, .gains, .offsets]
  | .mix => [.axes, .moments]
  | .setact _ _ _ _ => []
  | .clrstate => []
  | .reservedC => []
  | .reservedD => []
  | .reservedE => []
  | .reset => []
  | .momentReservedSel3 => []
  | .momentReservedSel4to7 _ => []
  | .pkt _ => [.rxq]
  | .loadcmd => [.cmd, .axes]
  | .zeroact => []
  | .tickManual => [.axes, .gains, .offsets]
  | .tickYaw _ => [.axes, .gains, .offsets]
  | .tickFull _ _ _ _ _ => [.axes, .gains, .offsets]
  | .pushframe _ => []
  | .sendcmd _ _ _ _ _ _ => []

end Sys2Proof

namespace Sys2Proof.Machine

/-- Nothing outside the columns `gs` differs: every other register and trace of the block, the configuration and the
waiting requests. -/
def OnlyChanges (gs : List Group) (s t : State) : Prop :=
  t.cfg = s.cfg ∧ t.inbox = s.inbox ∧ ∀ g : Group, g ∉ gs → g.Agree s.block t.block

/-! ### Programs -/

/-- Performs a list of operations in order, to the first refusal. -/
def execAll : List Instr → State → Out
  | [], s => .next s
  | i :: rest, s =>
    match exec i s with
    | .next t => execAll rest t
    | .fault r => .fault r
    | .refused r => .refused r

/-- An integer on a 32-bit data port (R65). -/
def port (v : Int) : S32 := BitVec.ofInt 32 v

/-- The eight PUSH of a frame, `b0` first (R73). -/
def pushesOf (f : Frame) : List Instr := (frameBytes f).map fun b => .push (b.setWidth 32)

/-- What a pseudo-operation expands to (R73), the snapshot read at the moment of the request; any other operation is
itself. -/
def expansion (s : State) : Instr → List Instr
  | .loadcmd =>
    [.setcmd (port s.block.cmd.axes.lift.toInt) (port s.block.cmd.axes.pitch.toInt)
      (port s.block.cmd.axes.roll.toInt) (port s.block.cmd.axes.yaw.toInt)]
  | .zeroact => [.setact 0 0 0 0]
  | .tickManual => [.momentManual, .mix]
  | .tickYaw sr => [.momentYaw sr, .mix]
  | .tickFull phi theta sp sq sr => [.momentFull phi theta sp sq sr, .mix]
  | .pushframe f => pushesOf f
  | .sendcmd mode gain lift pitch roll yaw => pushesOf (encodePayload s.cfg mode gain lift pitch roll yaw)
  | i => [i]

/-! ### Obligations on the users of the block -/

/-- Who issues operations (R170). -/
inductive Agent where
  | transport
  | host
  deriving DecidableEq, Repr

/-- PUSH is the transport's; every other request is the host's (R66, R170); a pseudo-operation belongs to the issuer of
what it expands to. The block checks none of it (R169). PKT is no request and R170 names no issuer for it: it puts bytes
into `RXQ`, as the transport may, and decodes, as the host may; that it counts as the host's, by its DECODE, is the
model's choice (DESIGN CHOICE, assumption log 14). -/
def issuer : Instr → Agent
  | .push _ | .pushframe _ | .sendcmd _ _ _ _ _ _ => .transport
  | .nop | .decode | .setcmd _ _ _ _ | .setgain _ _ | .gadj _ _ | .setoff _ _ | .setmom _ _ _ _ => .host
  | .momentManual | .momentYaw _ | .momentFull _ _ _ _ _ | .mix | .setact _ _ _ _ | .clrstate | .reset => .host
  | .reservedC | .reservedD | .reservedE | .momentReservedSel3 | .momentReservedSel4to7 _ => .host
  | .loadcmd | .zeroact | .tickManual | .tickYaw _ | .tickFull _ _ _ _ _ => .host
  | .pkt _ => .host

/-- Where a program stands between a MOMENT or SETMOM and the MIX that belongs to it (R188). -/
inductive Tick where
  /-- No MOMENT or SETMOM waits for its MIX. -/
  | closed
  /-- One does, and nothing R188 bars has come between. -/
  | opened
  /-- One does, and something R188 bars has come between: its MIX must not follow. -/
  | broken
  deriving DecidableEq, Repr

/-- An operation that R188 bars comes: it breaks an open tick, and a broken one stays broken. -/
def Tick.bar : Tick → Tick
  | .closed => .closed
  | .opened => .broken
  | .broken => .broken

/-- SETMOM stands on both lists of R188: with no tick open it opens one, like a MOMENT; within one it is barred. -/
def Tick.load : Tick → Tick
  | .closed => .opened
  | .opened => .broken
  | .broken => .broken

/-- The effect of one operation on the tick; nothing for a MIX that R188 forbids. R188 says "its MIX" and leaves open
to which of several a MIX belongs; assumption log 14 names the model's choice: to the last MOMENT before it, so that a
MOMENT, which R188 does not bar, starts a tick anew even after a broken one, as the MOMENT of a TICK does; RESET ends a
tick, whole or broken; PKT counts as the DECODE it is. -/
def Tick.next (t : Tick) : Instr → Option Tick
  | .momentManual | .momentYaw _ | .momentFull _ _ _ _ _ => some .opened
  | .setmom _ _ _ _ => some t.load
  | .decode | .pkt _ | .loadcmd | .setcmd _ _ _ _ | .setgain _ _ | .gadj _ _ | .setoff _ _ | .clrstate => some t.bar
  | .mix => if t = .broken then none else some .closed
  | .tickManual | .tickYaw _ | .tickFull _ _ _ _ _ | .reset => some .closed
  | .nop | .push _ | .pushframe _ | .sendcmd _ _ _ _ _ _ | .setact _ _ _ _ | .zeroact => some t
  | .reservedC | .reservedD | .reservedE | .momentReservedSel3 | .momentReservedSel4to7 _ => some t

/-- R188 on a program. -/
def keepsTicksWhole (t : Tick) : List Instr → Bool
  | [] => true
  | i :: rest =>
    match t.next i with
    | none => false
    | some t' => keepsTicksWhole t' rest

/-- The first two steps of R184; setting gains and offsets is as the host needs. -/
def bootSequence : List Instr := [.reset, .zeroact]

/-- A program as its users owe it to the block: every operation well formed (R70), every tick whole (R188). -/
def wellBehaved (is : List Instr) : Bool := is.all Instr.wf && keepsTicksWhole .closed is

end Sys2Proof.Machine
end

