-- ==== Sys2Proof/Certificates/Slice0/Obligations.lean ====
section
/-! DEFINITION. The statements for the provers, from the rules of spec/ file by file. Each quantifies over every state,
hence over every well-formed configuration (`s.cfg`). Values are said in other words than the model's: a clamp as
`max lo (min v hi)`, the division as `Int.tdiv`, the checksum as a logical shift. A statement marked "spec's own
decision" rests on a choice of 92_eei_decisions.md, not on the source. -/

open Sys2Proof Sys2Proof.Machine

/-- The response of an operation that defines none (R65). -/
def Sys2Proof.quiet : Response := ⟨false, false⟩

/-- The exclusive or of the seven covered bytes, shifted right by one, zero into bit 7: R80 under the reading of R82. -/
def Sys2Proof.xorShifted (h m g l p r y : Byte) : Byte := (h ^^^ m ^^^ g ^^^ l ^^^ p ^^^ r ^^^ y) >>> 1

/-- The sign restored as the source words it (R84): "if bit 6 is set, bit 7 is also set". -/
def Sys2Proof.signRestored (b : Byte) : Byte := if b.getLsbD 6 then b ||| 0x80#8 else b

/-- The snapshot an accepted frame leaves (R91). -/
def Sys2Proof.acceptedSnapshot (m g l p r y : Byte) : Snapshot :=
  ⟨m, g, ⟨signRestored l, signRestored p, signRestored r, signRestored y⟩⟩

/-- The range of a used sensor operand (R114). -/
def Sys2Proof.sensorRange (a : S32) : Prop := -32768 ≤ a.toInt ∧ a.toInt ≤ 32767

/-- The duty of a lane with sum `s` when the gate is open, R122 to R124, for a quotient `quot` of `s` by 4. -/
def Sys2Proof.dutyFor (c : Config) (quot : Int) : Int :=
  max c.minEffort (min (quot + c.effortBias) c.maxEffort) / 2 ^ c.dutyShift

/-- The sum of a lane (R122) from the registers read as signed integers. -/
def Sys2Proof.sumFor (r : MixRow) (m : Moments) : Int :=
  r.cZ * m.z.toInt + r.cL * m.l.toInt + r.cM * m.m.toInt + r.cN * m.n.toInt

/-- The ports of a request that the table of R66 names for its operation; the others at zero (R68). -/
def Sys2Proof.usedPorts (i : Instr) (p : Ports) : Ports :=
  match i with
  | .push _ => ⟨p.op, 0, 0, p.a, 0, 0, 0, 0⟩
  | .setcmd _ _ _ _ => ⟨p.op, 0, 0, p.a, p.b, p.c, p.d, 0⟩
  | .setgain _ _ => ⟨p.op, p.sel, 0, p.a, 0, 0, 0, 0⟩
  | .gadj _ _ => ⟨p.op, p.sel, p.dir, 0, 0, 0, 0, 0⟩
  | .setoff _ _ => ⟨p.op, p.sel, 0, p.a, 0, 0, 0, 0⟩
  | .setmom _ _ _ _ => ⟨p.op, 0, 0, p.a, p.b, p.c, p.d, 0⟩
  | .momentManual => ⟨p.op, p.sel, 0, 0, 0, 0, 0, 0⟩
  | .momentYaw _ => ⟨p.op, p.sel, 0, 0, 0, 0, 0, p.e⟩
  | .momentFull _ _ _ _ _ => ⟨p.op, p.sel, 0, p.a, p.b, p.c, p.d, p.e⟩
  | .momentReservedSel3 => ⟨p.op, p.sel, 0, 0, 0, 0, 0, 0⟩
  | .momentReservedSel4to7 _ => ⟨p.op, p.sel, 0, 0, 0, 0, 0, 0⟩
  | .setact _ _ _ _ => ⟨p.op, 0, 0, p.a, p.b, p.c, p.d, 0⟩
  | _ => ⟨p.op, 0, 0, 0, 0, 0, 0, 0⟩

/-- The operations that push (R48, R165): MIX and SETACT, and the pseudo-operations that expand to one. -/
def Sys2Proof.pushes : Instr → Bool
  | .mix | .setact _ _ _ _ | .zeroact | .tickManual | .tickYaw _ | .tickFull _ _ _ _ _ => true
  | _ => false

/-- The `k`-th payload byte of a frame, mode first. -/
def Sys2Proof.payloadByte (f : Frame) : Fin 6 → Byte
  | 0 => f.mode
  | 1 => f.gain
  | 2 => f.lift
  | 3 => f.pitch
  | 4 => f.roll
  | 5 => f.yaw

/-- The frame with its `k`-th payload byte replaced. -/
def Sys2Proof.withPayloadByte (f : Frame) (b : Byte) : Fin 6 → Frame
  | 0 => { f with mode := b }
  | 1 => { f with gain := b }
  | 2 => { f with lift := b }
  | 3 => { f with pitch := b }
  | 4 => { f with roll := b }
  | 5 => { f with yaw := b }

/-- The state with another inbound queue. -/
def Sys2Proof.withQueue (s : State) (q : List Byte) : State := { s with block := { s.block with rxq := q } }

/-- The outcome of a DECODE that accepts nothing: the queue emptied and `valid` 0, all else as it was (R160). -/
def Sys2Proof.dropped (s : State) : Host.Outcome State Fault Refusal :=
  .next { s with block := { s.block with rxq := [] }, resp := ⟨false, false⟩ }

/-- The outcome of a DECODE that accepts (R91 to R93). -/
def Sys2Proof.acceptedWith (s : State) (p : Snapshot) : Host.Outcome State Fault Refusal :=
  .next { s with
    block := { s.block with rxq := [], cmd := p, accHist := s.block.accHist + 1 }, resp := ⟨true, false⟩ }

/-- MOMENT and SETMOM, which open a tick (R188). -/
def Sys2Proof.opensTick : Instr → Bool
  | .momentManual | .momentYaw _ | .momentFull _ _ _ _ _ | .setmom _ _ _ _ => true
  | _ => false

/-- "none of DECODE, LOADCMD, SETCMD, SETGAIN, GADJ, SETOFF, SETMOM, CLRSTATE" (R188); PKT is a DECODE. -/
def Sys2Proof.barredInTick : Instr → Bool
  | .decode | .pkt _ | .loadcmd | .setcmd _ _ _ _ | .setgain _ _ | .gadj _ _ | .setoff _ _ | .setmom _ _ _ _
  | .clrstate => true
  | _ => false

/-- What may not stand between an opening operation and the MIX taken to be its own (assumption log 14): another MIX, a
MOMENT, a TICK, RESET. -/
def Sys2Proof.endsTick : Instr → Bool
  | .mix | .momentManual | .momentYaw _ | .momentFull _ _ _ _ _ | .tickManual | .tickYaw _ | .tickFull _ _ _ _ _
  | .reset => true
  | _ => false

/-! ### Configuration -/

/-- R5: a configuration of the model is exactly a record that meets items 1 to 7, in their order (R5, spec's own
decisions D14, D18). -/
def Obligations.ConfigurationsAreTheWellFormedRecords : Prop :=
  ∀ d : ConfigData, (∃ c : Config, c.toConfigData = d) ↔
    (0 ≤ d.minEffort ∧ d.minEffort ≤ d.maxEffort ∧ d.maxEffort ≤ 2 ^ 31 - 1) ∧
    (-2 ^ 31 ≤ d.effortBias ∧ d.effortBias ≤ 2 ^ 31 - 1) ∧
    (0 ≤ d.dutyShift ∧ d.dutyShift ≤ 31) ∧
    (d.maxEffort / 2 ^ d.dutyShift ≤ d.maxDuty ∧ d.maxDuty ≤ 2 ^ 16 - 1) ∧
    ((∀ r ∈ [d.mixCoef.r0, d.mixCoef.r1, d.mixCoef.r2, d.mixCoef.r3],
        r.cZ = 1 ∧ r.cN ∈ [1, -1] ∧ r.cL ∈ [-2, 0, 2] ∧ r.cM ∈ [-2, 0, 2]) ∧
      d.mixCoef.r0.cN = d.mixCoef.r2.cN ∧ d.mixCoef.r0.cN = -d.mixCoef.r1.cN ∧
      d.mixCoef.r0.cN = -d.mixCoef.r3.cN) ∧
    (1 ≤ d.kLift ∧ d.kLift ≤ 65536 ∧
      ∀ k ∈ [d.kRoll, d.kPitch, d.kYaw, d.kRset, d.kAset], -65536 ≤ k ∧ k ≤ 65536) ∧
    ∀ p ∈ [d.pRst, d.p1Rst, d.p2Rst], 0 ≤ p ∧ p ≤ 127

/-! ### Encodings -/

/-- A few words written out from R61, R66, R67 and R68 (the encodings R68 and the vectors show) decode to what they
stand for. The numbers are the spec's own decision D2. -/
def Obligations.SpecWordsDecodeAsWritten : Prop :=
  decode (.req 0x300000002000000000000000000000000000000000#168) = .ok (.setcmd 32 0 0 0) ∧
  decode (.req 0x530000000000000000000000000000000000000000#168) = .ok (.gadj .p1 .down) ∧
  decode (.req 0x66FFFFFFF400000000000000000000000000000000#168) = .ok (.setoff .phiOff (-12)) ∧
  decode (.req 0x84000000C4FFFFFFC00000001EFFFFFFE2FFFFFFD0#168) = .ok (.momentFull 196 (-64) 30 (-30) (-48)) ∧
  decode (.req 0x100000008000000000000000000000000000000000#168) = .ok (.push 0x80) ∧
  decode (.req 0x42000000C800000000000000000000000000000000#168) = .ok (.setgain .p1 200) ∧
  decode (.frame 0x800200287D054049#64) = .ok (.pkt ⟨0x80, 0x02, 0x00, 0x28, 0x7D, 0x05, 0x40, 0x49⟩)

/-- Decoding the code of an operation gives it back with every operand, for every operation and every operand value
(R61, R66 to R68; the codes are the spec's own decision D2). -/
def Obligations.DecodeInvertsEncode : Prop := ∀ i : Instr, decode (encode i) = .ok i

/-- A request word means one operation, whatever its unused fields hold: encoding what it decodes to gives the word with
exactly the unused fields cleared; a frame word has no unused field, and comes back whole (R61, R67 to R69). -/
def Obligations.EncodeGivesCanonicalWord : Prop :=
  (∀ (q : RequestWord) (i : Instr), decode (.req q) = .ok i → encode i = .req (pack (usedPorts i (unpack q)))) ∧
  (∀ (w : FrameWord) (i : Instr), decode (.frame w) = .ok i → encode i = .frame w)

/-- Reserved codes have no meaning and are refused: `op` 0xC to 0xE, `sel` 3 to 7 of SETGAIN, GADJ and MOMENT, `sel` 5
to 7 of SETOFF, whatever the other fields hold (R67, R70; spec's own decision D22). -/
def Obligations.ReservedCodesAreRefused : Prop :=
  ∀ (s : State) (q : RequestWord),
    ((unpack q).op = 0xC ∨ (unpack q).op = 0xD ∨ (unpack q).op = 0xE →
      step (s.withCode (.req q)) = .refused (.reservedOperation (unpack q).op)) ∧
    ((unpack q).op = 0x4 ∨ (unpack q).op = 0x5 ∨ (unpack q).op = 0x8 → 3 ≤ (unpack q).sel.toNat →
      step (s.withCode (.req q)) = .refused (.reservedSelector (unpack q).op (unpack q).sel)) ∧
    ((unpack q).op = 0x6 → 5 ≤ (unpack q).sel.toNat →
      step (s.withCode (.req q)) = .refused (.reservedSelector (unpack q).op (unpack q).sel))

/-- The five reserved rows of the table stop in every state, by name (R70; spec's own decision D22). -/
def Obligations.ReservedOperationsStop : Prop :=
  ∀ (s : State) (k : BitVec 2),
    exec .reservedC s = .refused (.reservedOperation 0xC) ∧ exec .reservedD s = .refused (.reservedOperation 0xD) ∧
    exec .reservedE s = .refused (.reservedOperation 0xE) ∧
    exec .momentReservedSel3 s = .refused (.reservedSelector 0x8 3) ∧
    exec (.momentReservedSel4to7 k) s = .refused (.reservedSelector 0x8 (BitVec.ofNat 3 (4 + k.toNat)))

/-- An operand outside its stated range is refused, and only such an operand (R66, R70; spec's own decision D22). -/
def Obligations.OutOfRangeOperandsAreRefused : Prop :=
  (∀ (s : State) (a : S32),
    exec (.push a) s = .refused (.operandOutOfRange 0x1) ↔ ¬(0 ≤ a.toInt ∧ a.toInt ≤ 255)) ∧
  (∀ (s : State) (o : Offset) (a : S32),
    exec (.setoff o a) s = .refused (.operandOutOfRange 0x6) ↔ ¬sensorRange a) ∧
  (∀ (s : State) (sr : S32),
    (exec (.momentYaw sr) s = .refused (.operandOutOfRange 0x8) ↔ ¬sensorRange sr) ∧
    (exec (.tickYaw sr) s = .refused (.operandOutOfRange 0x8) ↔ ¬sensorRange sr)) ∧
  (∀ (s : State) (phi theta sp sq sr : S32),
    (exec (.momentFull phi theta sp sq sr) s = .refused (.operandOutOfRange 0x8) ↔
      ¬(sensorRange phi ∧ sensorRange theta ∧ sensorRange sp ∧ sensorRange sq ∧ sensorRange sr)) ∧
    (exec (.tickFull phi theta sp sq sr) s = .refused (.operandOutOfRange 0x8) ↔
      ¬(sensorRange phi ∧ sensorRange theta ∧ sensorRange sp ∧ sensorRange sq ∧ sensorRange sr)))

/-! ### The step -/

/-- A step performs the oldest waiting request, decoded, on the state without it; refuses a request the decoder rejects;
and is idle when none waits (R23, R51, R70; how requests wait is the model's, assumption log 2 and 4). -/
def Obligations.StepPerformsOldestRequest : Prop :=
  ∀ s : State,
    (∀ code rest i, s.inbox = code :: rest → decode code = .ok i → step s = exec i { s with inbox := rest }) ∧
    (∀ code rest op sel, s.inbox = code :: rest → decode code = .error (.reservedSelector op sel) →
      step s = .refused (.reservedSelector op sel)) ∧
    (s.inbox = [] → step s = .next { s with resp := quiet })

/-- A well-formed operation completes in every state (R184: "every operation is defined in every state"); one that is
not is refused in every state (R70, R163; spec's own decision D22). PKT and the pseudo-operations as steps are the
model's, assumption log 5 and 6. -/
def Obligations.WellFormedOperationsComplete : Prop :=
  ∀ (i : Instr) (s : State),
    (i.wf = true → ∃ t, exec i s = .next t) ∧ (i.wf = false → ∃ r, exec i s = .refused r)

/-- No step changes the configuration, and a step takes exactly the oldest waiting request (R4, R51). -/
def Obligations.StepKeepsConfiguration : Prop :=
  ∀ s t : State, step s = .next t → t.cfg = s.cfg ∧ t.inbox = s.inbox.tail

/-! ### The codec -/

/-- PUSH appends its byte at the newest end and changes nothing else (R41, R86). -/
def Obligations.PushAppendsByte : Prop :=
  ∀ (a : S32) (s : State), 0 ≤ a.toInt → a.toInt ≤ 255 →
    exec (.push a) s =
      .next { s with
        block := { s.block with rxq := s.block.rxq ++ [BitVec.ofNat 8 a.toNat] }, resp := ⟨false, false⟩ }

/-- PUSHFRAME appends its eight bytes, `b0` first (R73). -/
def Obligations.PushframeAppendsEightBytes : Prop :=
  ∀ (b0 b1 b2 b3 b4 b5 b6 b7 : Byte) (s : State),
    exec (.pushframe ⟨b0, b1, b2, b3, b4, b5, b6, b7⟩) s =
      .next { s with
        block := { s.block with rxq := s.block.rxq ++ [b0, b1, b2, b3, b4, b5, b6, b7] }, resp := ⟨false, false⟩ }

/-- SENDCMD appends the frame of ENCODE: header, mode and gain-adjust as given, each axis in 7 bits with bit 7 clear,
and the checksum of those bytes (R73, R96; spec's own decision D34). -/
def Obligations.SendcmdAppendsEncodedFrame : Prop :=
  ∀ (mode gain : Byte) (lift pitch roll yaw : BitVec 7) (s : State),
    ∃ l p r y : Byte,
      exec (.sendcmd mode gain lift pitch roll yaw) s =
        .next { s with
          block := { s.block with
            rxq := s.block.rxq ++
              [s.cfg.header, mode, gain, l, p, r, y, xorShifted s.cfg.header mode gain l p r y] },
          resp := ⟨false, false⟩ } ∧
      (l.toNat : Int) = lift.toInt % 128 ∧ (p.toNat : Int) = pitch.toInt % 128 ∧
      (r.toNat : Int) = roll.toInt % 128 ∧ (y.toNat : Int) = yaw.toInt % 128

/-- The hunt (R88): with no sentinel in the queue, DECODE empties it and accepts nothing; otherwise what stands before
the first sentinel has no influence, and that sentinel ends the hunt whatever stands behind it: with at least seven
bytes there, the outcome is that of the sentinel and those seven bytes alone (that a frame that fails its check is not
hunted past is the spec's own decision D6). -/
def Obligations.DecodeHuntsToFirstSentinel : Prop :=
  ∀ s : State,
    (s.cfg.header ∉ s.block.rxq → exec .decode s = dropped s) ∧
    (∀ pre post, s.cfg.header ∉ pre → s.block.rxq = pre ++ s.cfg.header :: post →
      exec .decode s = exec .decode (withQueue s (s.cfg.header :: post)) ∧
      (7 ≤ post.length → exec .decode s = exec .decode (withQueue s (s.cfg.header :: post.take 7))))

/-- A sentinel with fewer than seven bytes behind it is dropped and the queue emptied (R89; spec's own decision D5). -/
def Obligations.DecodeDropsShortFrame : Prop :=
  ∀ (s : State) (pre post : List Byte), s.cfg.header ∉ pre → post.length < 7 →
    s.block.rxq = pre ++ s.cfg.header :: post → exec .decode s = dropped s

/-- A frame whose checksum byte differs, in any of its 8 bits, from the computed value is dropped; the queue is emptied
all the same (R69, R90, R93; spec's own decisions D4, D6). -/
def Obligations.DecodeDropsWrongChecksum : Prop :=
  ∀ (s : State) (pre post : List Byte) (m g l p r y c : Byte), s.cfg.header ∉ pre →
    s.block.rxq = pre ++ s.cfg.header :: m :: g :: l :: p :: r :: y :: c :: post →
    c ≠ xorShifted s.cfg.header m g l p r y → exec .decode s = dropped s

/-- A frame whose checksum byte is right is accepted: the six snapshot registers, the axes sign-restored, one acceptance
event, `valid`, and the queue emptied with whatever stood behind the frame (R87, R91 to R93, R185; spec's own decisions
D6, D7, D27). -/
def Obligations.DecodeAcceptsValidFrame : Prop :=
  ∀ (s : State) (pre post : List Byte) (m g l p r y : Byte), s.cfg.header ∉ pre →
    s.block.rxq =
      pre ++ s.cfg.header :: m :: g :: l :: p :: r :: y :: xorShifted s.cfg.header m g l p r y :: post →
    exec .decode s = acceptedWith s (acceptedSnapshot m g l p r y)

/-- DECODE always completes, leaves the queue empty, touches only the codec's state, and changes the snapshot and the
acceptance count only when it answers `valid`, then by one (R49, R92, R94, R95). -/
def Obligations.DecodeTouchesOnlyCodecState : Prop :=
  ∀ s : State, ∃ t, exec .decode s = .next t ∧ t.block.rxq = [] ∧ OnlyChanges [.rxq, .cmd, .accHist] s t ∧
    t.resp.changed = false ∧
    (t.resp.valid = true → t.block.accHist = s.block.accHist + 1) ∧
    (t.resp.valid = false → t.block.cmd = s.block.cmd ∧ t.block.accHist = s.block.accHist)

/-- PKT is the DECODE of a queue whose oldest bytes are the frame; it completes. Behind a right header, a right checksum
overwrites the snapshot and a wrong one drops the frame (R54, R60, R63, R69, R87; PKT as a step is the model's,
assumption log 5). -/
def Obligations.PacketRunsAsDecodeOfQueueHead : Prop :=
  (∀ (f : Frame) (s : State), (∃ t, exec (.pkt f) s = .next t) ∧
    exec (.pkt f) s =
      exec .decode (withQueue s
        ([f.header, f.mode, f.gain, f.lift, f.pitch, f.roll, f.yaw, f.chk] ++ s.block.rxq))) ∧
  (∀ (m g l p r y c : Byte) (s : State),
    (c = xorShifted s.cfg.header m g l p r y →
      exec (.pkt ⟨s.cfg.header, m, g, l, p, r, y, c⟩) s = acceptedWith s (acceptedSnapshot m g l p r y)) ∧
    (c ≠ xorShifted s.cfg.header m g l p r y →
      exec (.pkt ⟨s.cfg.header, m, g, l, p, r, y, c⟩) s = dropped s))

/-- The checksum function as R80 defines it: the arithmetic shift of the exclusive or, masked to 7 bits, which is bits
7:1; with the rule's worked example. -/
def Obligations.ChecksumIsMaskedArithmeticShift : Prop :=
  (∀ h m g l p r y : Byte,
    (chk7 h m g l p r y).setWidth 8 =
        BitVec.ofInt 8 ((h ^^^ m ^^^ g ^^^ l ^^^ p ^^^ r ^^^ y).toInt / 2) &&& 0x7F#8 ∧
      (chk7 h m g l p r y).toNat = (h ^^^ m ^^^ g ^^^ l ^^^ p ^^^ r ^^^ y).toNat / 2) ∧
  chk7 0x80 0x01 0x00 0x20 0x00 0x00 0x00 = 0x50#7

/-- The checksum is seven independent 7-input parity trees, and bit 0 of every byte is connected to nothing (R81). -/
def Obligations.ChecksumIsXorTree : Prop :=
  ∀ (h m g l p r y : Byte) (k : Nat), k < 7 →
    (chk7 h m g l p r y).getLsbD k =
      (h.getLsbD (k + 1) ^^ m.getLsbD (k + 1) ^^ g.getLsbD (k + 1) ^^ l.getLsbD (k + 1) ^^ p.getLsbD (k + 1) ^^
        r.getLsbD (k + 1) ^^ y.getLsbD (k + 1))

/-- What the check detects (R83): of a queue that holds one valid frame, with one byte replaced, DECODE accepts exactly
when the byte is a payload byte whose bits 7:1 are as they were. -/
def Obligations.SingleByteCorruptionDetection : Prop :=
  ∀ (s : State) (f : Frame), validPacket s.cfg f = true →
    (∀ (k : Fin 6) (b : Byte) (t : State),
      exec .decode (withQueue s (frameBytes (withPayloadByte f b k))) = .next t →
        (t.resp.valid = true ↔ b >>> 1 = payloadByte f k >>> 1)) ∧
    (∀ (b : Byte) (t : State), b ≠ f.chk →
      exec .decode (withQueue s (frameBytes { f with chk := b })) = .next t → t.resp.valid = false) ∧
    (∀ (b : Byte) (t : State), b ≠ f.header →
      exec .decode (withQueue s (frameBytes { f with header := b })) = .next t → t.resp.valid = false)

/-- The sign-bit restorer: bit 7 becomes bit 7 or bit 6, the others stay; the values of R85 by range, none in 64..127;
idempotent (R84, R85). -/
def Obligations.SignRestorerValues : Prop :=
  ∀ b : Byte,
    (srest b).getLsbD 7 = (b.getLsbD 7 || b.getLsbD 6) ∧ (∀ k : Fin 7, (srest b).getLsbD k = b.getLsbD k) ∧
    (b.toNat < 0x40 → (srest b).toInt = b.toNat) ∧
    (0x40 ≤ b.toNat → b.toNat < 0x80 → (srest b).toInt = b.toNat - 128) ∧
    (0x80 ≤ b.toNat → (srest b).toInt = b.toNat - 256) ∧
    (srest b).toInt < 64 ∧ srest (srest b) = srest b

/-- The round trip (R97): from any state whose queue holds no sentinel, the frame of ENCODE, appended, and a DECODE
reproduce the payload in the snapshot, with one acceptance event, and leave the queue empty and all else unchanged. -/
def Obligations.EncodedCommandRoundTrips : Prop :=
  ∀ (s : State) (mode gain : Byte) (lift pitch roll yaw : BitVec 7), s.cfg.header ∉ s.block.rxq →
    ∃ t u : State,
      exec (.sendcmd mode gain lift pitch roll yaw) s = .next t ∧ exec .decode t = .next u ∧
      u.resp.valid = true ∧ u.block.cmd.mode = mode ∧ u.block.cmd.gain = gain ∧
      u.block.cmd.axes.lift.toInt = lift.toInt ∧ u.block.cmd.axes.pitch.toInt = pitch.toInt ∧
      u.block.cmd.axes.roll.toInt = roll.toInt ∧ u.block.cmd.axes.yaw.toInt = yaw.toInt ∧
      u.block.accHist = s.block.accHist + 1 ∧ u.block.rxq = [] ∧ OnlyChanges [.rxq, .cmd, .accHist] s u

/-- A frame split across two polls is lost (R186; spec's own decision D5): from a state whose queue is empty, its first
1 to 7 bytes, a DECODE, the rest of its bytes, whatever they are, and a DECODE change nothing, and the queue ends empty
again. -/
def Obligations.FrameSplitAcrossPollsIsLost : Prop :=
  ∀ (s : State) (f : Frame) (k : Nat), s.block.rxq = [] → f.header = s.cfg.header → 1 ≤ k → k ≤ 7 →
    ∃ t, execAll (((pushesOf f).take k ++ [Instr.decode]) ++ ((pushesOf f).drop k ++ [Instr.decode])) s = .next t ∧
      t.resp.valid = false ∧ t.block = s.block

/-- The acceptance count moves by one exactly on an operation that answers `valid` (R20, R92), RESET apart (R180; spec's
own decision D27). -/
def Obligations.AcceptanceIsCountedOnce : Prop :=
  ∀ (i : Instr) (s t : State), exec i s = .next t → i ≠ .reset →
    t.block.accHist = s.block.accHist + (if t.resp.valid then 1 else 0)

/-! ### The mixer -/

/-- SETMOM stores the four quantities as given, with no clamp (R112). -/
def Obligations.SetmomStoresMoments : Prop :=
  ∀ (a b c d : S32) (s : State),
    exec (.setmom a b c d) s =
      .next { s with block := { s.block with mom := ⟨a, b, c, d⟩ }, resp := ⟨false, false⟩ }

/-- MOMENT.MANUAL (R115): each quantity is its scale times its axis, exactly, of magnitude at most 2^23; nothing else
changes (the formulas are the spec's own decision D19). -/
def Obligations.MomentManualScalesAxes : Prop :=
  ∀ s : State, ∃ t, exec .momentManual s = .next t ∧ OnlyChanges [.moments] s t ∧ t.resp = quiet ∧
    t.block.mom.z.toInt = s.cfg.kLift * s.block.cur.lift.toInt ∧
    t.block.mom.l.toInt = s.cfg.kRoll * s.block.cur.roll.toInt ∧
    t.block.mom.m.toInt = s.cfg.kPitch * s.block.cur.pitch.toInt ∧
    t.block.mom.n.toInt = s.cfg.kYaw * s.block.cur.yaw.toInt ∧
    |t.block.mom.z.toInt| ≤ 2 ^ 23 ∧ |t.block.mom.l.toInt| ≤ 2 ^ 23 ∧ |t.block.mom.m.toInt| ≤ 2 ^ 23 ∧
    |t.block.mom.n.toInt| ≤ 2 ^ 23

/-- MOMENT.YAW (R116, R119): as MANUAL, with the yaw moment the gain times the yaw-rate error, exactly and within 32
bits, in every state whose gains are in range as the invariant has them (the formulas are the spec's own decision D19). -/
def Obligations.MomentYawFeedsBackYawRate : Prop :=
  ∀ (sr : S32) (s : State), s.block.gains.Ok → sensorRange sr →
    ∃ t, exec (.momentYaw sr) s = .next t ∧ OnlyChanges [.moments] s t ∧ t.resp = quiet ∧
      t.block.mom.z.toInt = s.cfg.kLift * s.block.cur.lift.toInt ∧
      t.block.mom.l.toInt = s.cfg.kRoll * s.block.cur.roll.toInt ∧
      t.block.mom.m.toInt = s.cfg.kPitch * s.block.cur.pitch.toInt ∧
      t.block.mom.n.toInt =
        s.block.gains.p.toNat * (s.cfg.kRset * s.block.cur.yaw.toInt - (sr.toInt - s.block.offs.rOff.toInt)) ∧
      |t.block.mom.n.toInt| ≤ 1073676161

/-- MOMENT.FULL (R117 to R119): angle-error and rate-error terms on roll and pitch, yaw as in YAW, exactly and within 32
bits, in every state whose gains are in range as the invariant has them (the formulas are the spec's own decision D19). -/
def Obligations.MomentFullFeedsBackAnglesAndRates : Prop :=
  ∀ (phi theta sp sq sr : S32) (s : State), s.block.gains.Ok →
    sensorRange phi → sensorRange theta → sensorRange sp → sensorRange sq → sensorRange sr →
    ∃ t, exec (.momentFull phi theta sp sq sr) s = .next t ∧ OnlyChanges [.moments] s t ∧ t.resp = quiet ∧
      t.block.mom.z.toInt = s.cfg.kLift * s.block.cur.lift.toInt ∧
      t.block.mom.l.toInt =
        s.block.gains.p1.toNat *
            (s.cfg.kAset * s.block.cur.roll.toInt - (phi.toInt - s.block.offs.phiOff.toInt)) -
          s.block.gains.p2.toNat * (sp.toInt - s.block.offs.pOff.toInt) ∧
      t.block.mom.m.toInt =
        s.block.gains.p1.toNat *
            (s.cfg.kAset * s.block.cur.pitch.toInt - (theta.toInt - s.block.offs.thetaOff.toInt)) -
          s.block.gains.p2.toNat * (sq.toInt - s.block.offs.qOff.toInt) ∧
      t.block.mom.n.toInt =
        s.block.gains.p.toNat * (s.cfg.kRset * s.block.cur.yaw.toInt - (sr.toInt - s.block.offs.rOff.toInt)) ∧
      |t.block.mom.l.toInt| ≤ 1081999106 ∧ |t.block.mom.m.toInt| ≤ 1081999106 ∧ |t.block.mom.n.toInt| ≤ 1073676161

/-- The lift gate (R121, R128 item 1): for a commanded lift of zero or less MIX writes and pushes four zeros, whatever
the moments hold; nothing else changes (that the gate reads `LIFT` is the spec's own decision D13). -/
def Obligations.MixGateClosedGivesZeros : Prop :=
  ∀ s : State, s.block.cur.lift.toInt ≤ 0 →
    exec .mix s =
      .next { s with
        block := { s.block with
          ae := ⟨0, 0, 0, 0⟩, actOut := ⟨0, 0, 0, 0⟩, actHist := s.block.actHist ++ [⟨0, 0, 0, 0⟩] },
        resp := ⟨false, false⟩ }

/-- MIX with the gate open (R120, R122 to R127): each lane is its weighted sum, divided by 4 toward zero, biased, clamped
to the effort range and shifted; the four are written to `AE` and pushed together; nothing else changes (the weights'
form and the rounding are the spec's own decisions D14, D15). -/
def Obligations.MixGateOpenComputesDuties : Prop :=
  ∀ s : State, 0 < s.block.cur.lift.toInt → ∃ t, exec .mix s = .next t ∧ OnlyChanges [.ae, .output] s t ∧
    t.resp = quiet ∧
    (t.block.ae.d0.toNat : Int) = dutyFor s.cfg ((sumFor s.cfg.mixCoef.r0 s.block.mom).tdiv 4) ∧
    (t.block.ae.d1.toNat : Int) = dutyFor s.cfg ((sumFor s.cfg.mixCoef.r1 s.block.mom).tdiv 4) ∧
    (t.block.ae.d2.toNat : Int) = dutyFor s.cfg ((sumFor s.cfg.mixCoef.r2 s.block.mom).tdiv 4) ∧
    (t.block.ae.d3.toNat : Int) = dutyFor s.cfg ((sumFor s.cfg.mixCoef.r3 s.block.mom).tdiv 4) ∧
    t.block.actOut = t.block.ae ∧ t.block.actHist = s.block.actHist ++ [t.block.ae]

/-- The range of the duties with the gate open (R128 item 2). -/
def Obligations.MixGateOpenDutyRange : Prop :=
  ∀ s t : State, 0 < s.block.cur.lift.toInt → exec .mix s = .next t →
    ∀ d ∈ [t.block.ae.d0, t.block.ae.d1, t.block.ae.d2, t.block.ae.d3],
      s.cfg.minEffort / 2 ^ s.cfg.dutyShift ≤ (d.toNat : Int) ∧
      (d.toNat : Int) ≤ s.cfg.maxEffort / 2 ^ s.cfg.dutyShift ∧ (d.toNat : Int) ≤ s.cfg.maxDuty

/-- A second MIX with nothing between writes the same duties and pushes them again (R128 item 4). -/
def Obligations.SecondMixRepeatsDuties : Prop :=
  ∀ s : State, ∃ t u, exec .mix s = .next t ∧ exec .mix t = .next u ∧ u.block.ae = t.block.ae ∧
    u.block.actHist = s.block.actHist ++ [t.block.ae, t.block.ae]

/-- In each lane the duty is a non-decreasing function of the sum (R128 item 5). -/
def Obligations.MixIsMonotoneInLaneSum : Prop :=
  ∀ s s' t t' : State, s.cfg = s'.cfg → 0 < s.block.cur.lift.toInt → 0 < s'.block.cur.lift.toInt →
    exec .mix s = .next t → exec .mix s' = .next t' →
    (sumFor s.cfg.mixCoef.r0 s.block.mom ≤ sumFor s.cfg.mixCoef.r0 s'.block.mom →
      t.block.ae.d0.toNat ≤ t'.block.ae.d0.toNat) ∧
    (sumFor s.cfg.mixCoef.r1 s.block.mom ≤ sumFor s.cfg.mixCoef.r1 s'.block.mom →
      t.block.ae.d1.toNat ≤ t'.block.ae.d1.toNat) ∧
    (sumFor s.cfg.mixCoef.r2 s.block.mom ≤ sumFor s.cfg.mixCoef.r2 s'.block.mom →
      t.block.ae.d2.toNat ≤ t'.block.ae.d2.toNat) ∧
    (sumFor s.cfg.mixCoef.r3 s.block.mom ≤ sumFor s.cfg.mixCoef.r3 s'.block.mom →
      t.block.ae.d3.toNat ≤ t'.block.ae.d3.toNat)

/-- Where `EFFORT_BIAS <= MIN_EFFORT`, rounding the division toward minus infinity would give the same duties (R129). -/
def Obligations.MixRoundingInvisibleUnderLowBias : Prop :=
  ∀ s t : State, s.cfg.effortBias ≤ s.cfg.minEffort → 0 < s.block.cur.lift.toInt → exec .mix s = .next t →
    (t.block.ae.d0.toNat : Int) = dutyFor s.cfg (sumFor s.cfg.mixCoef.r0 s.block.mom / 4) ∧
    (t.block.ae.d1.toNat : Int) = dutyFor s.cfg (sumFor s.cfg.mixCoef.r1 s.block.mom / 4) ∧
    (t.block.ae.d2.toNat : Int) = dutyFor s.cfg (sumFor s.cfg.mixCoef.r2 s.block.mom / 4) ∧
    (t.block.ae.d3.toNat : Int) = dutyFor s.cfg (sumFor s.cfg.mixCoef.r3 s.block.mom / 4)

/-- The width of the adder tree (R131): for every configuration and every content of the moments, no sum reaches 2^34,
no quotient 2^32 and no biased term 2^33. -/
def Obligations.AdderTreeFits36Bits : Prop :=
  ∀ (c : Config) (m : Moments),
    ∀ r ∈ [c.mixCoef.r0, c.mixCoef.r1, c.mixCoef.r2, c.mixCoef.r3],
      |laneSum r m| < 2 ^ 34 ∧ |tdiv (laneSum r m) 4| < 2 ^ 32 ∧ |tdiv (laneSum r m) 4 + c.effortBias| < 2 ^ 33

/-- The duties depend on `LIFT`, `Z`, `L`, `M`, `N` and the configuration alone (R27, R120); with the gate closed not even
on those: "independent of any other control state" (R121). -/
def Obligations.DutiesDependOnlyOnLiftAndMoments : Prop :=
  ∀ s s' t t' : State, exec .mix s = .next t → exec .mix s' = .next t' →
    (s.cfg = s'.cfg → s.block.cur.lift = s'.block.cur.lift → s.block.mom = s'.block.mom → t.block.ae = t'.block.ae) ∧
    (s.block.cur.lift.toInt ≤ 0 → s'.block.cur.lift.toInt ≤ 0 → t.block.ae = t'.block.ae)

/-- Every MIX performs exactly one push of the four values it has just written, gate open or closed and whether or not
they differ from the previous ones (R126). -/
def Obligations.MixAlwaysPushesOnce : Prop :=
  ∀ s : State, ∃ t, exec .mix s = .next t ∧ t.block.actOut = t.block.ae ∧
    t.block.actHist = s.block.actHist ++ [t.block.ae]

/-- Over all operations (R19, R48, R165, R187): one that pushes appends exactly one tuple, what `AE` and the output stage
then hold; any other, RESET apart, leaves `AE`, the output stage and its trace as they were. -/
def Obligations.OnlyMixAndSetactPush : Prop :=
  ∀ (i : Instr) (s t : State), exec i s = .next t → i ≠ .reset →
    (pushes i = true → t.block.actHist = s.block.actHist ++ [t.block.ae] ∧ t.block.actOut = t.block.ae) ∧
    (pushes i = false →
      t.block.actHist = s.block.actHist ∧ t.block.actOut = s.block.actOut ∧ t.block.ae = s.block.ae)

/-- TICK is its MOMENT and then MIX, and completes on the operands that MOMENT takes (R130; that it is one step is the
model's, assumption log 6). -/
def Obligations.TickIsMomentThenMix : Prop :=
  ∀ s : State,
    (∃ u t, exec .momentManual s = .next u ∧ exec .mix u = .next t ∧ exec .tickManual s = .next t) ∧
    (∀ sr, sensorRange sr →
      ∃ u t, exec (.momentYaw sr) s = .next u ∧ exec .mix u = .next t ∧ exec (.tickYaw sr) s = .next t) ∧
    (∀ phi theta sp sq sr, sensorRange phi → sensorRange theta → sensorRange sp → sensorRange sq → sensorRange sr →
      ∃ u t, exec (.momentFull phi theta sp sq sr) s = .next u ∧ exec .mix u = .next t ∧
        exec (.tickFull phi theta sp sq sr) s = .next t)

/-- A pseudo-operation is the list of operations it expands to, from every state, with the same outcome, refusals
included (R73; that it is one step is the model's, assumption log 6). -/
def Obligations.PseudoOperationsExpand : Prop :=
  ∀ (i : Instr) (s : State), exec i s = execAll (expansion s i) s

/-! ### Saturation and command registers -/

/-- The clamp (R140). -/
def Obligations.ClampSelectsBoundOrValue : Prop :=
  ∀ v lo hi : Int, lo ≤ hi →
    (v < lo → sat v lo hi = lo) ∧ (v > hi → sat v lo hi = hi) ∧ (lo ≤ v → v ≤ hi → sat v lo hi = v)

/-- Properties of the clamp (R141): in range, the identity exactly on the range, non-decreasing, idempotent, no wrap. -/
def Obligations.ClampProperties : Prop :=
  ∀ v w lo hi : Int, lo ≤ hi →
    lo ≤ sat v lo hi ∧ sat v lo hi ≤ hi ∧ (sat v lo hi = v ↔ lo ≤ v ∧ v ≤ hi) ∧
    (v ≤ w → sat v lo hi ≤ sat w lo hi) ∧ sat (sat v lo hi) lo hi = sat v lo hi ∧
    sat (lo - 1) lo hi = lo ∧ sat (hi + 1) lo hi = hi

/-- SETCMD (R144): each axis is its operand clamped to -128..127, the old axes become the previous, nothing else changes
(that it saturates is the spec's own decision D11). -/
def Obligations.SetcmdSaturatesAxes : Prop :=
  ∀ (a b c d : S32) (s : State), ∃ t, exec (.setcmd a b c d) s = .next t ∧ OnlyChanges [.axes, .prevAxes] s t ∧
    t.block.cur.lift.toInt = max (-128) (min a.toInt 127) ∧ t.block.cur.pitch.toInt = max (-128) (min b.toInt 127) ∧
    t.block.cur.roll.toInt = max (-128) (min c.toInt 127) ∧ t.block.cur.yaw.toInt = max (-128) (min d.toInt 127) ∧
    t.block.prev = s.block.cur ∧ t.resp.valid = false

/-- The `changed` response (R147): 1 exactly when some axis has, after the operation, a value different from before,
which is that the current and previous axes then differ. -/
def Obligations.ChangedReportsAxisChange : Prop :=
  ∀ (s t : State) (a b c d : S32), exec (.setcmd a b c d) s = .next t ∨ exec .loadcmd s = .next t →
    (t.resp.changed = true ↔
      t.block.cur.lift ≠ s.block.cur.lift ∨ t.block.cur.pitch ≠ s.block.cur.pitch ∨
        t.block.cur.roll ≠ s.block.cur.roll ∨ t.block.cur.yaw ≠ s.block.cur.yaw) ∧
    (t.resp.changed = true ↔ t.block.cur ≠ t.block.prev)

/-- LOADCMD (R145): the axes of the snapshot become the commanded axes as they are, the old ones the previous; nothing
else changes (spec's own decision D2). -/
def Obligations.LoadcmdCopiesSnapshotAxes : Prop :=
  ∀ s : State, ∃ t, exec .loadcmd s = .next t ∧ OnlyChanges [.axes, .prevAxes] s t ∧
    t.block.cur = s.block.cmd.axes ∧ t.block.prev = s.block.cur ∧ t.resp.valid = false

/-- SETGAIN (R148): the named gain is the operand clamped to 0..127; nothing else changes (spec's own decision D2). -/
def Obligations.SetgainClampsNamedGain : Prop :=
  ∀ (g : Gain) (a : S32) (s : State), ∃ t, exec (.setgain g a) s = .next t ∧ OnlyChanges [.gains] s t ∧
    t.resp = quiet ∧ ((t.block.gains.get g).toNat : Int) = max 0 (min a.toInt 127) ∧
    ∀ g', g' ≠ g → t.block.gains.get g' = s.block.gains.get g'

/-- GADJ (R150): the named gain moves one up or one down and never leaves 0..127; nothing else changes; a reserved
selector is refused. -/
def Obligations.GadjStepsNamedGain : Prop :=
  (∀ (g : Gain) (s : State),
    (∃ t, exec (.gadj g .up) s = .next t ∧ OnlyChanges [.gains] s t ∧ t.resp = quiet ∧
      ((t.block.gains.get g).toNat : Int) = max 0 (min (((s.block.gains.get g).toNat : Int) + 1) 127) ∧
      ∀ g', g' ≠ g → t.block.gains.get g' = s.block.gains.get g') ∧
    (∃ t, exec (.gadj g .down) s = .next t ∧ OnlyChanges [.gains] s t ∧ t.resp = quiet ∧
      ((t.block.gains.get g).toNat : Int) = max 0 (min (((s.block.gains.get g).toNat : Int) - 1) 127) ∧
      ∀ g', g' ≠ g → t.block.gains.get g' = s.block.gains.get g')) ∧
  (∀ q : RequestWord, (unpack q).op = 0x5 →
    (∀ i, decode (.req q) = .ok i ↔
      ∃ g dir, i = .gadj g dir ∧ (unpack q).sel = selOfGain g ∧ (unpack q).dir = bitOfDir dir) ∧
    (3 ≤ (unpack q).sel.toNat → decode (.req q) = .error (.reservedSelector 0x5 (unpack q).sel)))

/-- SETOFF (R152): the named offset is the operand, with no clamp; nothing else changes (spec's own decision D28). -/
def Obligations.SetoffStoresNamedOffset : Prop :=
  ∀ (o : Offset) (a : S32) (s : State), sensorRange a →
    ∃ t, exec (.setoff o a) s = .next t ∧ OnlyChanges [.offsets] s t ∧ t.resp = quiet ∧
      (t.block.offs.get o).toInt = a.toInt ∧ ∀ o', o' ≠ o → t.block.offs.get o' = s.block.offs.get o'

/-- SETACT (R154): each duty is its operand clamped to 0..MAX_DUTY, whatever the commanded lift; the four are written to
`AE` and pushed together; nothing else changes (spec's own decision D2). -/
def Obligations.SetactClampsAndPushes : Prop :=
  ∀ (a b c d : S32) (s : State), ∃ t, exec (.setact a b c d) s = .next t ∧ OnlyChanges [.ae, .output] s t ∧
    t.resp = quiet ∧
    (t.block.ae.d0.toNat : Int) = max 0 (min a.toInt s.cfg.maxDuty) ∧
    (t.block.ae.d1.toNat : Int) = max 0 (min b.toInt s.cfg.maxDuty) ∧
    (t.block.ae.d2.toNat : Int) = max 0 (min c.toInt s.cfg.maxDuty) ∧
    (t.block.ae.d3.toNat : Int) = max 0 (min d.toInt s.cfg.maxDuty) ∧
    t.block.actOut = t.block.ae ∧ t.block.actHist = s.block.actHist ++ [t.block.ae]

/-- ZEROACT (R155): `SETACT 0, 0, 0, 0`; `AE` zero and one push of zeros. -/
def Obligations.ZeroactPushesZeros : Prop :=
  ∀ s : State, exec .zeroact s = exec (.setact 0 0 0 0) s ∧
    exec .zeroact s =
      .next { s with
        block := { s.block with
          ae := ⟨0, 0, 0, 0⟩, actOut := ⟨0, 0, 0, 0⟩, actHist := s.block.actHist ++ [⟨0, 0, 0, 0⟩] },
        resp := ⟨false, false⟩ }

/-- CLRSTATE (R156): the commanded, previous and derived registers at zero; nothing else changes (clearing the previous
axes is the spec's own decision D32). -/
def Obligations.ClrstateZeroesCommandedAndDerived : Prop :=
  ∀ s : State,
    exec .clrstate s =
      .next { s with
        block := { s.block with cur := ⟨0, 0, 0, 0⟩, prev := ⟨0, 0, 0, 0⟩, mom := ⟨0, 0, 0, 0⟩ },
        resp := ⟨false, false⟩ }

/-- NOP changes nothing and responds nothing (R157; spec's own decision D2). -/
def Obligations.NopChangesNothing : Prop :=
  ∀ s : State, exec .nop s = .next { s with resp := ⟨false, false⟩ }

/-! ### Reset and the whole machine -/

/-- RESET (R180): every element of the block at its reset value, the gains at the configuration's; the configuration and
the waiting requests stay; and the state the machine starts in is the state after RESET (the values are the spec's own
decision D12; that requests stay is the model's, assumption log 8). -/
def Obligations.ResetPutsEveryElement : Prop :=
  (∀ c : Config, exec .reset (State.boot c) = .next (State.boot c)) ∧
  ∀ s : State, ∃ t, exec .reset s = .next t ∧ t.cfg = s.cfg ∧ t.inbox = s.inbox ∧ t.resp = quiet ∧
    t.block.rxq = [] ∧ t.block.cmd = ⟨0x00, 0x00, ⟨0, 0, 0, 0⟩⟩ ∧ t.block.cur = ⟨0, 0, 0, 0⟩ ∧
    t.block.prev = ⟨0, 0, 0, 0⟩ ∧ t.block.mom = ⟨0, 0, 0, 0⟩ ∧
    (t.block.gains.p.toNat : Int) = s.cfg.pRst ∧ (t.block.gains.p1.toNat : Int) = s.cfg.p1Rst ∧
    (t.block.gains.p2.toNat : Int) = s.cfg.p2Rst ∧
    t.block.offs = ⟨0, 0, 0, 0, 0⟩ ∧ t.block.ae = ⟨0, 0, 0, 0⟩ ∧ t.block.actOut = ⟨0, 0, 0, 0⟩ ∧
    t.block.actHist = [] ∧ t.block.accHist = 0

/-- The invariant holds right after reset, under every configuration (R22, R25). -/
def Obligations.BootStateMeetsInvariant : Prop := (∀ c : Config, (State.boot c).Inv) ∧ State.reset.Inv

/-- Every step keeps the invariant (R22): the gains in 0..127, every duty in `AE`, in the output stage and in its trace
in 0..MAX_DUTY, the output stage the tuple pushed last; and, the model's addition, `AE` what the output stage holds. -/
def Obligations.StepKeepsInvariant : Prop := ∀ s t : State, s.Inv → step s = .next t → t.Inv

/-- The columns `w` of the access table (R27): an operation changes nothing its row does not mark. -/
def Obligations.OperationsWriteOnlyMarkedState : Prop :=
  ∀ (i : Instr) (s t : State), exec i s = .next t → OnlyChanges i.writes s t

/-- The columns `r` of the access table (R27): from two states that agree on the configuration and on what the row marks
as read, an operation gives the same response and agrees afterwards on every column they agreed on before. -/
def Obligations.OperationsReadOnlyMarkedState : Prop :=
  ∀ (i : Instr) (s s' t t' : State), s.cfg = s'.cfg → (∀ g ∈ i.reads, g.Agree s.block s'.block) →
    exec i s = .next t → exec i s' = .next t' →
    t.resp = t'.resp ∧ ∀ g : Group, g.Agree s.block s'.block → g.Agree t.block t'.block

/-- R188 on programs: a program is not whole exactly when an operation that R188 bars stands between a MOMENT or SETMOM
and its MIX, with no other MIX, MOMENT, TICK or RESET between the two (which MIX belongs to which MOMENT is the model's
choice, assumption log 14; the obligation is the spec's own decision D31). -/
def Obligations.BrokenTicksAreThoseWithABarredOperation : Prop :=
  ∀ is : List Instr, keepsTicksWhole .closed is = false ↔
    ∃ (pre mid rest : List Instr) (opener : Instr), is = pre ++ opener :: (mid ++ .mix :: rest) ∧
      opensTick opener = true ∧ (∃ b ∈ mid, barredInTick b = true) ∧ ∀ i ∈ mid, endsTick i = false
end

