-- ==== Sys2Proof/Laws/Operands.lean ====
section
/-! SUPPORT. What the combinational functions compute: the clamp, the division, the checksum tree, the sign-bit
restorer; and the bounds of a well-formed configuration. -/

namespace Sys2Proof.Machine

/-! ### The clamp (R140, R141) -/

theorem sat_eq_max_min {lo hi : Int} (v : Int) (h : lo ≤ hi) : sat v lo hi = max lo (min hi v) := by
  unfold sat; split <;> (try split) <;> omega

theorem sat_lower {lo hi : Int} (v : Int) (h : lo ≤ hi) : lo ≤ sat v lo hi := by
  rw [sat_eq_max_min v h]; omega

theorem sat_upper {lo hi : Int} (v : Int) (h : lo ≤ hi) : sat v lo hi ≤ hi := by
  rw [sat_eq_max_min v h]; omega

theorem sat_of_mem {lo hi v : Int} (h₁ : lo ≤ v) (h₂ : v ≤ hi) : sat v lo hi = v := by
  rw [sat_eq_max_min v (Int.le_trans h₁ h₂)]; omega

theorem sat_mono {lo hi v w : Int} (h : lo ≤ hi) (hvw : v ≤ w) : sat v lo hi ≤ sat w lo hi := by
  rw [sat_eq_max_min v h, sat_eq_max_min w h]; omega

/-! ### The division (R111) and the shift (R7) -/

theorem tdiv_eq_Int_tdiv (a : Int) : tdiv a 4 = a.tdiv 4 := by
  unfold tdiv
  split
  · next h => rw [Int.tdiv_eq_ediv_of_nonneg h]
  · next h =>
    have h' : 0 ≤ -a := by omega
    rw [← Int.tdiv_eq_ediv_of_nonneg h', Int.neg_tdiv, Int.neg_neg]

theorem tdiv_mono {a b : Int} (h : a ≤ b) : tdiv a 4 ≤ tdiv b 4 := by
  unfold tdiv; split <;> split <;> omega

theorem shr_mono {v w : Int} (n : Nat) (h : v ≤ w) : shr v n ≤ shr w n :=
  Int.ediv_le_ediv (by positivity) h

theorem shr_nonneg {v : Int} (n : Nat) (h : 0 ≤ v) : 0 ≤ shr v n :=
  Int.ediv_nonneg h (by positivity)

/-! ### Narrow reads and writes -/

theorem toInt_ofInt_8 {v : Int} (h₁ : -128 ≤ v) (h₂ : v ≤ 127) : (BitVec.ofInt 8 v).toInt = v := by
  rw [BitVec.toInt_ofInt, Int.bmod_def]; norm_num; omega

theorem toInt_ofInt_32 {v : Int} (h₁ : -2147483648 ≤ v) (h₂ : v ≤ 2147483647) : (BitVec.ofInt 32 v).toInt = v := by
  rw [BitVec.toInt_ofInt, Int.bmod_def]; norm_num; omega

theorem toNat_ofInt_8 {v : Int} (h₁ : 0 ≤ v) (h₂ : v ≤ 255) : ((BitVec.ofInt 8 v).toNat : Int) = v := by
  rw [BitVec.toNat_ofInt]; norm_num; omega

theorem toNat_ofInt_16 {v : Int} (h₁ : 0 ≤ v) (h₂ : v ≤ 65535) : ((BitVec.ofInt 16 v).toNat : Int) = v := by
  rw [BitVec.toNat_ofInt]; norm_num; omega

theorem toInt_extract_16 (a : S32) (h : inS16 a = true) : (a.extractLsb' 0 16).toInt = a.toInt := by
  simp only [inS16, Bool.and_eq_true, decide_eq_true_eq] at h
  rw [BitVec.toInt_eq_toNat_cond, BitVec.extractLsb'_toNat]
  rw [BitVec.toInt_eq_toNat_cond] at h ⊢
  have := a.isLt
  norm_num at *
  split_ifs at * <;> omega

/-! ### The checksum tree (R80 to R82) -/

theorem chk7_eq_shift (h m g l p r y : Byte) :
    (chk7 h m g l p r y).setWidth 8 = (h ^^^ m ^^^ g ^^^ l ^^^ p ^^^ r ^^^ y) >>> 1 := by
  unfold chk7
  generalize h ^^^ m ^^^ g ^^^ l ^^^ p ^^^ r ^^^ y = x
  revert x; decide

theorem chk7_bit (h m g l p r y : Byte) {k : Nat} (hk : k < 7) :
    (chk7 h m g l p r y).getLsbD k =
      (h.getLsbD (k + 1) ^^ m.getLsbD (k + 1) ^^ g.getLsbD (k + 1) ^^ l.getLsbD (k + 1) ^^ p.getLsbD (k + 1) ^^
        r.getLsbD (k + 1) ^^ y.getLsbD (k + 1)) := by
  have hb : (chk7 h m g l p r y).getLsbD k = ((chk7 h m g l p r y).setWidth 8).getLsbD k := by
    simp [BitVec.getLsbD_setWidth]; omega
  rw [hb, chk7_eq_shift]
  simp [BitVec.getLsbD_ushiftRight, Nat.add_comm]

/-! ### The sign-bit restorer (R84, R85) -/

theorem srest_eq_ite (b : Byte) : srest b = if b.getLsbD 6 then b ||| 0x80#8 else b := by
  revert b; decide

theorem srest_idem (b : Byte) : srest (srest b) = srest b := by
  revert b; decide

theorem srest_axisByte (v : BitVec 7) : (srest (axisByte v)).toInt = v.toInt := by
  revert v; decide

end Sys2Proof.Machine

namespace Sys2Proof

/-! ### A well-formed configuration (R5) -/

theorem wellFormed_iff (c : ConfigData) :
    c.wellFormed = true ↔ c.EffortBoundsOk ∧ c.BiasOk ∧ c.ShiftOk ∧ c.DutyBoundOk ∧ c.MixOk ∧ c.ScalesOk ∧
      c.GainResetsOk := by
  simp only [ConfigData.wellFormed, Bool.and_eq_true, decide_eq_true_eq, and_assoc]

theorem Config.effortOk (c : Config) : c.EffortBoundsOk := ((wellFormed_iff _).1 c.wf).1
theorem Config.biasOk (c : Config) : c.BiasOk := ((wellFormed_iff _).1 c.wf).2.1
theorem Config.dutyOk (c : Config) : c.DutyBoundOk := ((wellFormed_iff _).1 c.wf).2.2.2.1
theorem Config.mixOk (c : Config) : c.MixOk := ((wellFormed_iff _).1 c.wf).2.2.2.2.1
theorem Config.scalesOk (c : Config) : c.ScalesOk := ((wellFormed_iff _).1 c.wf).2.2.2.2.2.1
theorem Config.gainResetsOk (c : Config) : c.GainResetsOk := ((wellFormed_iff _).1 c.wf).2.2.2.2.2.2

theorem Config.maxDuty_nonneg (c : Config) : 0 ≤ c.maxDuty := by
  have h := c.effortOk
  have hd := c.dutyOk
  have : (0 : Int) ≤ c.maxEffort / 2 ^ c.dutyShift := Int.ediv_nonneg (by omega) (by positivity)
  omega

end Sys2Proof

namespace Sys2Proof.Machine

/-! ### From a sum to a duty (R122 to R125) -/

/-- R125: under a well-formed configuration the duty clamp of MIX never takes effect. -/
theorem dutyOfSum_eq (c : Config) (sum : Int) :
    dutyOfSum c sum = shr (sat (tdiv sum 4 + c.effortBias) c.minEffort c.maxEffort) c.dutyShift := by
  have h := c.effortOk
  have hd := c.dutyOk
  have lo := sat_lower (tdiv sum 4 + c.effortBias) h.2.1
  have hi := shr_mono c.dutyShift (sat_upper (tdiv sum 4 + c.effortBias) h.2.1)
  exact sat_of_mem (shr_nonneg _ (by omega)) (Int.le_trans hi hd.1)

theorem dutyOfSum_bounds (c : Config) (sum : Int) : 0 ≤ dutyOfSum c sum ∧ dutyOfSum c sum ≤ c.maxDuty :=
  ⟨sat_lower _ c.maxDuty_nonneg, sat_upper _ c.maxDuty_nonneg⟩

end Sys2Proof.Machine
end

