-- ==== Sys2Proof/Laws/State.lean ====
section
/-! SUPPORT. One lemma per field per update of the state: what each named update of Machine/Ops.lean writes, and that
it leaves every other field. No later proof unfolds an update. -/

namespace Sys2Proof.Machine

/-! ### State -/

@[simp] theorem State.put_cfg (s : State) (k : Block) (r : Response) : (s.put k r).cfg = s.cfg := rfl
@[simp] theorem State.put_inbox (s : State) (k : Block) (r : Response) : (s.put k r).inbox = s.inbox := rfl
@[simp] theorem State.put_block (s : State) (k : Block) (r : Response) : (s.put k r).block = k := rfl
@[simp] theorem State.put_resp (s : State) (k : Block) (r : Response) : (s.put k r).resp = r := rfl
@[simp] theorem State.withCode_cfg (s : State) (c : Code) : (s.withCode c).cfg = s.cfg := rfl
@[simp] theorem State.withCode_inbox (s : State) (c : Code) : (s.withCode c).inbox = c :: s.inbox := rfl
@[simp] theorem State.withCode_block (s : State) (c : Code) : (s.withCode c).block = s.block := rfl
@[simp] theorem State.withCode_resp (s : State) (c : Code) : (s.withCode c).resp = s.resp := rfl
@[simp] theorem State.reset_block : State.reset.block = Block.reset Config.installed := rfl
@[simp] theorem State.reset_cfg : State.reset.cfg = Config.installed := rfl
@[simp] theorem State.reset_inbox : State.reset.inbox = [] := rfl
@[simp] theorem State.reset_resp : State.reset.resp = Response.none := rfl

/-! ### Block.rxAppend -/

@[simp] theorem Block.rxAppend_rxq (k : Block) (b : Byte) : (k.rxAppend b).rxq = k.rxq ++ [b] := rfl
@[simp] theorem Block.rxAppend_cmd (k : Block) (b : Byte) : (k.rxAppend b).cmd = k.cmd := rfl
@[simp] theorem Block.rxAppend_cur (k : Block) (b : Byte) : (k.rxAppend b).cur = k.cur := rfl
@[simp] theorem Block.rxAppend_prev (k : Block) (b : Byte) : (k.rxAppend b).prev = k.prev := rfl
@[simp] theorem Block.rxAppend_mom (k : Block) (b : Byte) : (k.rxAppend b).mom = k.mom := rfl
@[simp] theorem Block.rxAppend_gains (k : Block) (b : Byte) : (k.rxAppend b).gains = k.gains := rfl
@[simp] theorem Block.rxAppend_offs (k : Block) (b : Byte) : (k.rxAppend b).offs = k.offs := rfl
@[simp] theorem Block.rxAppend_ae (k : Block) (b : Byte) : (k.rxAppend b).ae = k.ae := rfl
@[simp] theorem Block.rxAppend_actOut (k : Block) (b : Byte) : (k.rxAppend b).actOut = k.actOut := rfl
@[simp] theorem Block.rxAppend_actHist (k : Block) (b : Byte) : (k.rxAppend b).actHist = k.actHist := rfl
@[simp] theorem Block.rxAppend_accHist (k : Block) (b : Byte) : (k.rxAppend b).accHist = k.accHist := rfl

/-! ### Block.rxFlush -/

@[simp] theorem Block.rxFlush_rxq (k : Block) : (k.rxFlush).rxq = [] := rfl
@[simp] theorem Block.rxFlush_cmd (k : Block) : (k.rxFlush).cmd = k.cmd := rfl
@[simp] theorem Block.rxFlush_cur (k : Block) : (k.rxFlush).cur = k.cur := rfl
@[simp] theorem Block.rxFlush_prev (k : Block) : (k.rxFlush).prev = k.prev := rfl
@[simp] theorem Block.rxFlush_mom (k : Block) : (k.rxFlush).mom = k.mom := rfl
@[simp] theorem Block.rxFlush_gains (k : Block) : (k.rxFlush).gains = k.gains := rfl
@[simp] theorem Block.rxFlush_offs (k : Block) : (k.rxFlush).offs = k.offs := rfl
@[simp] theorem Block.rxFlush_ae (k : Block) : (k.rxFlush).ae = k.ae := rfl
@[simp] theorem Block.rxFlush_actOut (k : Block) : (k.rxFlush).actOut = k.actOut := rfl
@[simp] theorem Block.rxFlush_actHist (k : Block) : (k.rxFlush).actHist = k.actHist := rfl
@[simp] theorem Block.rxFlush_accHist (k : Block) : (k.rxFlush).accHist = k.accHist := rfl

/-! ### Block.frameAtHead -/

@[simp] theorem Block.frameAtHead_rxq (k : Block) (f : Frame) : (k.frameAtHead f).rxq = frameBytes f ++ k.rxq := rfl
@[simp] theorem Block.frameAtHead_cmd (k : Block) (f : Frame) : (k.frameAtHead f).cmd = k.cmd := rfl
@[simp] theorem Block.frameAtHead_cur (k : Block) (f : Frame) : (k.frameAtHead f).cur = k.cur := rfl
@[simp] theorem Block.frameAtHead_prev (k : Block) (f : Frame) : (k.frameAtHead f).prev = k.prev := rfl
@[simp] theorem Block.frameAtHead_mom (k : Block) (f : Frame) : (k.frameAtHead f).mom = k.mom := rfl
@[simp] theorem Block.frameAtHead_gains (k : Block) (f : Frame) : (k.frameAtHead f).gains = k.gains := rfl
@[simp] theorem Block.frameAtHead_offs (k : Block) (f : Frame) : (k.frameAtHead f).offs = k.offs := rfl
@[simp] theorem Block.frameAtHead_ae (k : Block) (f : Frame) : (k.frameAtHead f).ae = k.ae := rfl
@[simp] theorem Block.frameAtHead_actOut (k : Block) (f : Frame) : (k.frameAtHead f).actOut = k.actOut := rfl
@[simp] theorem Block.frameAtHead_actHist (k : Block) (f : Frame) : (k.frameAtHead f).actHist = k.actHist := rfl
@[simp] theorem Block.frameAtHead_accHist (k : Block) (f : Frame) : (k.frameAtHead f).accHist = k.accHist := rfl

/-! ### Block.actPush -/

@[simp] theorem Block.actPush_rxq (k : Block) (q : Duties) : (k.actPush q).rxq = k.rxq := rfl
@[simp] theorem Block.actPush_cmd (k : Block) (q : Duties) : (k.actPush q).cmd = k.cmd := rfl
@[simp] theorem Block.actPush_cur (k : Block) (q : Duties) : (k.actPush q).cur = k.cur := rfl
@[simp] theorem Block.actPush_prev (k : Block) (q : Duties) : (k.actPush q).prev = k.prev := rfl
@[simp] theorem Block.actPush_mom (k : Block) (q : Duties) : (k.actPush q).mom = k.mom := rfl
@[simp] theorem Block.actPush_gains (k : Block) (q : Duties) : (k.actPush q).gains = k.gains := rfl
@[simp] theorem Block.actPush_offs (k : Block) (q : Duties) : (k.actPush q).offs = k.offs := rfl
@[simp] theorem Block.actPush_ae (k : Block) (q : Duties) : (k.actPush q).ae = k.ae := rfl
@[simp] theorem Block.actPush_actOut (k : Block) (q : Duties) : (k.actPush q).actOut = q := rfl
@[simp] theorem Block.actPush_actHist (k : Block) (q : Duties) : (k.actPush q).actHist = k.actHist ++ [q] := rfl
@[simp] theorem Block.actPush_accHist (k : Block) (q : Duties) : (k.actPush q).accHist = k.accHist := rfl

/-! ### Block.writeAct -/

@[simp] theorem Block.writeAct_rxq (k : Block) (q : Duties) : (k.writeAct q).rxq = k.rxq := rfl
@[simp] theorem Block.writeAct_cmd (k : Block) (q : Duties) : (k.writeAct q).cmd = k.cmd := rfl
@[simp] theorem Block.writeAct_cur (k : Block) (q : Duties) : (k.writeAct q).cur = k.cur := rfl
@[simp] theorem Block.writeAct_prev (k : Block) (q : Duties) : (k.writeAct q).prev = k.prev := rfl
@[simp] theorem Block.writeAct_mom (k : Block) (q : Duties) : (k.writeAct q).mom = k.mom := rfl
@[simp] theorem Block.writeAct_gains (k : Block) (q : Duties) : (k.writeAct q).gains = k.gains := rfl
@[simp] theorem Block.writeAct_offs (k : Block) (q : Duties) : (k.writeAct q).offs = k.offs := rfl
@[simp] theorem Block.writeAct_ae (k : Block) (q : Duties) : (k.writeAct q).ae = q := rfl
@[simp] theorem Block.writeAct_actOut (k : Block) (q : Duties) : (k.writeAct q).actOut = q := rfl
@[simp] theorem Block.writeAct_actHist (k : Block) (q : Duties) : (k.writeAct q).actHist = k.actHist ++ [q] := rfl
@[simp] theorem Block.writeAct_accHist (k : Block) (q : Duties) : (k.writeAct q).accHist = k.accHist := rfl

/-! ### Block.acceptPacket -/

@[simp] theorem Block.acceptPacket_rxq (k : Block) (p : Snapshot) : (k.acceptPacket p).rxq = k.rxq := rfl
@[simp] theorem Block.acceptPacket_cmd (k : Block) (p : Snapshot) : (k.acceptPacket p).cmd = p := rfl
@[simp] theorem Block.acceptPacket_cur (k : Block) (p : Snapshot) : (k.acceptPacket p).cur = k.cur := rfl
@[simp] theorem Block.acceptPacket_prev (k : Block) (p : Snapshot) : (k.acceptPacket p).prev = k.prev := rfl
@[simp] theorem Block.acceptPacket_mom (k : Block) (p : Snapshot) : (k.acceptPacket p).mom = k.mom := rfl
@[simp] theorem Block.acceptPacket_gains (k : Block) (p : Snapshot) : (k.acceptPacket p).gains = k.gains := rfl
@[simp] theorem Block.acceptPacket_offs (k : Block) (p : Snapshot) : (k.acceptPacket p).offs = k.offs := rfl
@[simp] theorem Block.acceptPacket_ae (k : Block) (p : Snapshot) : (k.acceptPacket p).ae = k.ae := rfl
@[simp] theorem Block.acceptPacket_actOut (k : Block) (p : Snapshot) : (k.acceptPacket p).actOut = k.actOut := rfl
@[simp] theorem Block.acceptPacket_actHist (k : Block) (p : Snapshot) : (k.acceptPacket p).actHist = k.actHist := rfl
@[simp] theorem Block.acceptPacket_accHist (k : Block) (p : Snapshot) : (k.acceptPacket p).accHist = k.accHist + 1 := rfl

/-! ### Block.writeAxes -/

@[simp] theorem Block.writeAxes_rxq (k : Block) (new : Axes) : (k.writeAxes new).rxq = k.rxq := rfl
@[simp] theorem Block.writeAxes_cmd (k : Block) (new : Axes) : (k.writeAxes new).cmd = k.cmd := rfl
@[simp] theorem Block.writeAxes_cur (k : Block) (new : Axes) : (k.writeAxes new).cur = new := rfl
@[simp] theorem Block.writeAxes_prev (k : Block) (new : Axes) : (k.writeAxes new).prev = k.cur := rfl
@[simp] theorem Block.writeAxes_mom (k : Block) (new : Axes) : (k.writeAxes new).mom = k.mom := rfl
@[simp] theorem Block.writeAxes_gains (k : Block) (new : Axes) : (k.writeAxes new).gains = k.gains := rfl
@[simp] theorem Block.writeAxes_offs (k : Block) (new : Axes) : (k.writeAxes new).offs = k.offs := rfl
@[simp] theorem Block.writeAxes_ae (k : Block) (new : Axes) : (k.writeAxes new).ae = k.ae := rfl
@[simp] theorem Block.writeAxes_actOut (k : Block) (new : Axes) : (k.writeAxes new).actOut = k.actOut := rfl
@[simp] theorem Block.writeAxes_actHist (k : Block) (new : Axes) : (k.writeAxes new).actHist = k.actHist := rfl
@[simp] theorem Block.writeAxes_accHist (k : Block) (new : Axes) : (k.writeAxes new).accHist = k.accHist := rfl

/-! ### Block.writeMoments -/

@[simp] theorem Block.writeMoments_rxq (k : Block) (m : Moments) : (k.writeMoments m).rxq = k.rxq := rfl
@[simp] theorem Block.writeMoments_cmd (k : Block) (m : Moments) : (k.writeMoments m).cmd = k.cmd := rfl
@[simp] theorem Block.writeMoments_cur (k : Block) (m : Moments) : (k.writeMoments m).cur = k.cur := rfl
@[simp] theorem Block.writeMoments_prev (k : Block) (m : Moments) : (k.writeMoments m).prev = k.prev := rfl
@[simp] theorem Block.writeMoments_mom (k : Block) (m : Moments) : (k.writeMoments m).mom = m := rfl
@[simp] theorem Block.writeMoments_gains (k : Block) (m : Moments) : (k.writeMoments m).gains = k.gains := rfl
@[simp] theorem Block.writeMoments_offs (k : Block) (m : Moments) : (k.writeMoments m).offs = k.offs := rfl
@[simp] theorem Block.writeMoments_ae (k : Block) (m : Moments) : (k.writeMoments m).ae = k.ae := rfl
@[simp] theorem Block.writeMoments_actOut (k : Block) (m : Moments) : (k.writeMoments m).actOut = k.actOut := rfl
@[simp] theorem Block.writeMoments_actHist (k : Block) (m : Moments) : (k.writeMoments m).actHist = k.actHist := rfl
@[simp] theorem Block.writeMoments_accHist (k : Block) (m : Moments) : (k.writeMoments m).accHist = k.accHist := rfl

/-! ### Block.clear -/

@[simp] theorem Block.clear_rxq (k : Block) : (k.clear).rxq = k.rxq := rfl
@[simp] theorem Block.clear_cmd (k : Block) : (k.clear).cmd = k.cmd := rfl
@[simp] theorem Block.clear_cur (k : Block) : (k.clear).cur = Axes.zero := rfl
@[simp] theorem Block.clear_prev (k : Block) : (k.clear).prev = Axes.zero := rfl
@[simp] theorem Block.clear_mom (k : Block) : (k.clear).mom = Moments.zero := rfl
@[simp] theorem Block.clear_gains (k : Block) : (k.clear).gains = k.gains := rfl
@[simp] theorem Block.clear_offs (k : Block) : (k.clear).offs = k.offs := rfl
@[simp] theorem Block.clear_ae (k : Block) : (k.clear).ae = k.ae := rfl
@[simp] theorem Block.clear_actOut (k : Block) : (k.clear).actOut = k.actOut := rfl
@[simp] theorem Block.clear_actHist (k : Block) : (k.clear).actHist = k.actHist := rfl
@[simp] theorem Block.clear_accHist (k : Block) : (k.clear).accHist = k.accHist := rfl

/-! ### Block.writeGain -/

@[simp] theorem Block.writeGain_rxq (k : Block) (g : Gain) (v : Int) : (k.writeGain g v).rxq = k.rxq := rfl
@[simp] theorem Block.writeGain_cmd (k : Block) (g : Gain) (v : Int) : (k.writeGain g v).cmd = k.cmd := rfl
@[simp] theorem Block.writeGain_cur (k : Block) (g : Gain) (v : Int) : (k.writeGain g v).cur = k.cur := rfl
@[simp] theorem Block.writeGain_prev (k : Block) (g : Gain) (v : Int) : (k.writeGain g v).prev = k.prev := rfl
@[simp] theorem Block.writeGain_mom (k : Block) (g : Gain) (v : Int) : (k.writeGain g v).mom = k.mom := rfl
@[simp] theorem Block.writeGain_gains (k : Block) (g : Gain) (v : Int) : (k.writeGain g v).gains = k.gains.set (BitVec.ofInt 8 (sat v 0 127)) g := rfl
@[simp] theorem Block.writeGain_offs (k : Block) (g : Gain) (v : Int) : (k.writeGain g v).offs = k.offs := rfl
@[simp] theorem Block.writeGain_ae (k : Block) (g : Gain) (v : Int) : (k.writeGain g v).ae = k.ae := rfl
@[simp] theorem Block.writeGain_actOut (k : Block) (g : Gain) (v : Int) : (k.writeGain g v).actOut = k.actOut := rfl
@[simp] theorem Block.writeGain_actHist (k : Block) (g : Gain) (v : Int) : (k.writeGain g v).actHist = k.actHist := rfl
@[simp] theorem Block.writeGain_accHist (k : Block) (g : Gain) (v : Int) : (k.writeGain g v).accHist = k.accHist := rfl

/-! ### Block.writeOffset -/

@[simp] theorem Block.writeOffset_rxq (k : Block) (o : Offset) (v : S16) : (k.writeOffset o v).rxq = k.rxq := rfl
@[simp] theorem Block.writeOffset_cmd (k : Block) (o : Offset) (v : S16) : (k.writeOffset o v).cmd = k.cmd := rfl
@[simp] theorem Block.writeOffset_cur (k : Block) (o : Offset) (v : S16) : (k.writeOffset o v).cur = k.cur := rfl
@[simp] theorem Block.writeOffset_prev (k : Block) (o : Offset) (v : S16) : (k.writeOffset o v).prev = k.prev := rfl
@[simp] theorem Block.writeOffset_mom (k : Block) (o : Offset) (v : S16) : (k.writeOffset o v).mom = k.mom := rfl
@[simp] theorem Block.writeOffset_gains (k : Block) (o : Offset) (v : S16) : (k.writeOffset o v).gains = k.gains := rfl
@[simp] theorem Block.writeOffset_offs (k : Block) (o : Offset) (v : S16) : (k.writeOffset o v).offs = k.offs.set v o := rfl
@[simp] theorem Block.writeOffset_ae (k : Block) (o : Offset) (v : S16) : (k.writeOffset o v).ae = k.ae := rfl
@[simp] theorem Block.writeOffset_actOut (k : Block) (o : Offset) (v : S16) : (k.writeOffset o v).actOut = k.actOut := rfl
@[simp] theorem Block.writeOffset_actHist (k : Block) (o : Offset) (v : S16) : (k.writeOffset o v).actHist = k.actHist := rfl
@[simp] theorem Block.writeOffset_accHist (k : Block) (o : Offset) (v : S16) : (k.writeOffset o v).accHist = k.accHist := rfl

/-! ### Gains and offsets by selector -/

@[simp] theorem Gains.get_set (gs : Gains) (v : Byte) (g : Gain) : (gs.set v g).get g = v := by cases g <;> rfl

theorem Gains.get_set_of_ne (gs : Gains) (v : Byte) {g g' : Gain} (h : g' ≠ g) : (gs.set v g).get g' = gs.get g' := by
  cases g <;> cases g' <;> first | rfl | exact absurd rfl h

@[simp] theorem Offsets.get_set (os : Offsets) (v : S16) (o : Offset) : (os.set v o).get o = v := by cases o <;> rfl

theorem Offsets.get_set_of_ne (os : Offsets) (v : S16) {o o' : Offset} (h : o' ≠ o) :
    (os.set v o).get o' = os.get o' := by
  cases o <;> cases o' <;> first | rfl | exact absurd rfl h

end Sys2Proof.Machine
end

