-- ==== Sys2Proof/Laws/Codec.lean ====
section
/-! SUPPORT. What the hunt, the collection and the examination of DECODE find (R87 to R90), and what a verdict does to
the block (R91 to R95). -/

namespace Sys2Proof.Machine

theorem hunt_none_iff (h : Byte) (q : List Byte) : hunt h q = none ↔ h ∉ q := by
  induction q with
  | nil => simp [hunt]
  | cons b rest ih =>
    unfold hunt
    split
    · next e => simp [e]
    · next e => rw [ih]; simp [Ne.symm e]

theorem hunt_append (h : Byte) {pre : List Byte} (post : List Byte) (hp : h ∉ pre) :
    hunt h (pre ++ h :: post) = some post := by
  induction pre with
  | nil => simp [hunt]
  | cons b rest ih =>
    have hb : b ≠ h := fun e => hp (by simp [e])
    have hr : h ∉ rest := fun e => hp (by simp [e])
    simp [hunt, hb, ih hr]

/-- R89: the collection fails exactly on fewer than seven bytes. -/
theorem collect_short (h : Byte) {q : List Byte} (hq : q.length < 7) : collect h q = none := by
  match q, hq with
  | [], _ | [_], _ | [_, _], _ | [_, _, _], _ | [_, _, _, _], _ | [_, _, _, _, _], _ | [_, _, _, _, _, _], _ => rfl

theorem collect_seven (h m g l p r y c : Byte) (post : List Byte) :
    collect h (m :: g :: l :: p :: r :: y :: c :: post) = some ⟨h, m, g, l, p, r, y, c⟩ := rfl

theorem rxEmpty_append_cons (pre : List Byte) (b : Byte) (post : List Byte) : rxEmpty (pre ++ b :: post) = false := by
  cases pre <;> rfl

/-- What DECODE finds when no byte is the sentinel. -/
theorem examine_no_sentinel (h : Byte) (q : List Byte) (hq : h ∉ q) : ∃ why, examine h q = .dropped why := by
  unfold examine
  rw [(hunt_none_iff h q).2 hq]
  cases rxEmpty q <;> simp

/-- What DECODE finds behind the first sentinel. -/
theorem examine_sentinel (h : Byte) {pre : List Byte} (post : List Byte) (hp : h ∉ pre) :
    examine h (pre ++ h :: post) =
      match collect h post with
      | none => .dropped .short
      | some f => if frameChecks f then .accepted (snapshotOf f) else .dropped .chk := by
  unfold examine
  rw [rxEmpty_append_cons, hunt_append h post hp]
  exact (if_neg Bool.false_ne_true).trans (by cases hc : collect h post <;> simp [hc])

theorem frameChecks_iff (f : Frame) :
    frameChecks f = true ↔
      f.chk = (f.header ^^^ f.mode ^^^ f.gain ^^^ f.lift ^^^ f.pitch ^^^ f.roll ^^^ f.yaw) >>> 1 := by
  unfold frameChecks
  rw [chk7_eq_shift, beq_iff_eq]
  exact eq_comm

@[simp] theorem Block.rxAppendFrame_eq (k : Block) (f : Frame) :
    k.rxAppendFrame f = { k with rxq := k.rxq ++ frameBytes f } := by
  simp [Block.rxAppendFrame, frameBytes, Block.rxAppend]

/-- R94: every DECODE leaves the queue empty. -/
@[simp] theorem Block.settle_rxq (k : Block) (v : Verdict) : (k.settle v).rxq = [] := by cases v <;> rfl
@[simp] theorem Block.settle_cur (k : Block) (v : Verdict) : (k.settle v).cur = k.cur := by cases v <;> rfl
@[simp] theorem Block.settle_prev (k : Block) (v : Verdict) : (k.settle v).prev = k.prev := by cases v <;> rfl
@[simp] theorem Block.settle_mom (k : Block) (v : Verdict) : (k.settle v).mom = k.mom := by cases v <;> rfl
@[simp] theorem Block.settle_gains (k : Block) (v : Verdict) : (k.settle v).gains = k.gains := by cases v <;> rfl
@[simp] theorem Block.settle_offs (k : Block) (v : Verdict) : (k.settle v).offs = k.offs := by cases v <;> rfl
@[simp] theorem Block.settle_ae (k : Block) (v : Verdict) : (k.settle v).ae = k.ae := by cases v <;> rfl
@[simp] theorem Block.settle_actOut (k : Block) (v : Verdict) : (k.settle v).actOut = k.actOut := by cases v <;> rfl
@[simp] theorem Block.settle_actHist (k : Block) (v : Verdict) : (k.settle v).actHist = k.actHist := by cases v <;> rfl

end Sys2Proof.Machine
end

