-- ==== Sys2Proof/Laws/Decode.lean ====
section
/-! SUPPORT. The packings of R61 and R68 lose nothing: each field of a packed request or frame reads back. -/

namespace Sys2Proof

/-- The high part of a concatenation reads back, shifted. -/
theorem extract_append_high {m n : Nat} (x : BitVec m) (y : BitVec n) (start len : Nat) (h : n ≤ start) :
    (x ++ y).extractLsb' start len = x.extractLsb' (start - n) len := by
  ext i hi
  simp only [BitVec.getElem_extractLsb', BitVec.getLsbD_append]
  rw [if_neg (by omega)]
  congr 1
  omega

/-- The low part of a concatenation reads back. -/
theorem extract_append_low {m n : Nat} (x : BitVec m) (y : BitVec n) (start len : Nat) (h : start + len ≤ n) :
    (x ++ y).extractLsb' start len = y.extractLsb' start len := by
  ext i hi
  simp only [BitVec.getElem_extractLsb', BitVec.getLsbD_append]
  rw [if_pos (by omega)]

theorem extract_whole {n : Nat} (x : BitVec n) : x.extractLsb' 0 n = x := by
  ext i hi
  simp

theorem unpack_pack (p : Ports) : unpack (pack p) = p := by
  obtain ⟨op, sel, dir, a, b, c, d, e⟩ := p
  simp (disch := omega) only [unpack, pack, extract_append_high, extract_append_low, Nat.reduceSub, extract_whole,
    Nat.sub_self]

theorem frameOfWord_wordOfFrame (f : Frame) : frameOfWord (wordOfFrame f) = f := by
  obtain ⟨header, mode, gain, lift, pitch, roll, yaw, chk⟩ := f
  simp (disch := omega) only [frameOfWord, wordOfFrame, extract_append_high, extract_append_low, Nat.reduceSub,
    extract_whole, Nat.sub_self]

@[simp] theorem gainOfSel_selOfGain (g : Gain) : gainOfSel (selOfGain g) = some g := by cases g <;> rfl

@[simp] theorem offsetOfSel_selOfOffset (o : Offset) : offsetOfSel (selOfOffset o) = some o := by cases o <;> rfl

@[simp] theorem dirOfBit_bitOfDir (d : Dir) : dirOfBit (bitOfDir d) = d := by cases d <;> rfl

end Sys2Proof
end

