-- ==== Sys2Proof/Laws/Mixer.lean ====
section
/-! SUPPORT. The bounds of the multiplier tree (R119) and of the adder tree (R131), the value of one lane of MIX, and
the fields MIX writes. -/

namespace Sys2Proof.Machine

/-- The product of a bounded scale and a bounded axis. -/
theorem mul_bound {k x K X : Int} (hk : -K ≤ k ∧ k ≤ K) (hx : -X ≤ x ∧ x ≤ X) : -(K * X) ≤ k * x ∧ k * x ≤ K * X := by
  have h := abs_mul k x
  have hk' : |k| ≤ K := abs_le.2 hk
  have hx' : |x| ≤ X := abs_le.2 hx
  have : |k * x| ≤ K * X := by
    rw [h]; exact mul_le_mul hk' hx' (abs_nonneg x) (le_trans (abs_nonneg k) hk')
  exact abs_le.1 this

/-- R115: a scaled axis has magnitude at most 2^23. -/
theorem scaled_axis_bound {k : Int} (hk : ScaleOk k) (v : S8) :
    -8388608 ≤ k * v.toInt ∧ k * v.toInt ≤ 8388608 := by
  have h₁ := BitVec.toInt_lt (x := v)
  have h₂ := BitVec.le_toInt v
  norm_num at h₁ h₂
  have := mul_bound (K := 65536) (X := 128) ⟨hk.1, hk.2⟩ (x := v.toInt) ⟨by omega, by omega⟩
  omega

theorem toInt_16_bound (v : S16) : -32768 ≤ v.toInt ∧ v.toInt ≤ 32767 := by
  have h₁ := BitVec.toInt_lt (x := v)
  have h₂ := BitVec.le_toInt v
  norm_num at h₁ h₂
  omega

theorem toInt_32_bound (v : S32) : -2147483648 ≤ v.toInt ∧ v.toInt ≤ 2147483647 := by
  have h₁ := BitVec.toInt_lt (x := v)
  have h₂ := BitVec.le_toInt v
  norm_num at h₁ h₂
  omega

theorem inS16_iff (a : S32) : inS16 a = true ↔ -32768 ≤ a.toInt ∧ a.toInt ≤ 32767 := by
  simp [inS16]

theorem inU8_iff (a : S32) : inU8 a = true ↔ 0 ≤ a.toInt ∧ a.toInt ≤ 255 := by
  simp [inU8]

theorem sensorsOk_iff (a b c d e : S32) :
    sensorsOk a b c d e = true ↔
      inS16 a = true ∧ inS16 b = true ∧ inS16 c = true ∧ inS16 d = true ∧ inS16 e = true := by
  simp [sensorsOk, and_assoc]

/-- R119, the yaw moment: |N| ≤ 127 * (8388608 + 65535). -/
theorem yawFeedback_bound (c : Config) (k : Block) (sr : S32) (hg : k.gains.p.toNat ≤ 127) (hs : inS16 sr = true) :
    -1073676161 ≤ yawFeedback c k sr ∧ yawFeedback c k sr ≤ 1073676161 := by
  have hk := scaled_axis_bound c.scalesOk.2.2.2.2.2.1 k.cur.yaw
  have ho := toInt_16_bound k.offs.rOff
  have hs' := (inS16_iff sr).1 hs
  have := mul_bound (k := (k.gains.p.toNat : Int)) (K := 127) (X := 8454143)
    (x := c.kRset * k.cur.yaw.toInt - (sr.toInt - k.offs.rOff.toInt)) ⟨by omega, by omega⟩ ⟨by omega, by omega⟩
  unfold yawFeedback
  omega

/-- R119, the roll and pitch moments: |L|, |M| ≤ 1073676161 + 127 * 65535. -/
theorem tiltFeedback_bound (c : Config) (gs : Gains) (axis : S8) (angle rate : S32) (ao ro : S16)
    (hg : gs.Ok) (ha : inS16 angle = true) (hr : inS16 rate = true) :
    -1081999106 ≤ tiltFeedback c gs axis angle rate ao ro ∧ tiltFeedback c gs axis angle rate ao ro ≤ 1081999106 := by
  have hk := scaled_axis_bound c.scalesOk.2.2.2.2.2.2 axis
  have h₁ := toInt_16_bound ao
  have h₂ := toInt_16_bound ro
  have ha' := (inS16_iff angle).1 ha
  have hr' := (inS16_iff rate).1 hr
  have hp1 := hg.2.1
  have hp2 := hg.2.2
  have m₁ := mul_bound (k := (gs.p1.toNat : Int)) (K := 127) (X := 8454143)
    (x := c.kAset * axis.toInt - (angle.toInt - ao.toInt)) ⟨by omega, by omega⟩ ⟨by omega, by omega⟩
  have m₂ := mul_bound (k := (gs.p2.toNat : Int)) (K := 127) (X := 65535)
    (x := rate.toInt - ro.toInt) ⟨by omega, by omega⟩ ⟨by omega, by omega⟩
  unfold tiltFeedback
  omega

/-- R131: with the weights of R5 item 5 a sum is below 2^34. -/
theorem laneSum_bound {r : MixRow} (hr : r.WeightsOk) (m : Moments) :
    -12884901888 ≤ laneSum r m ∧ laneSum r m ≤ 12884901888 := by
  have hz := toInt_32_bound m.z
  have hl := toInt_32_bound m.l
  have hm := toInt_32_bound m.m
  have hn := toInt_32_bound m.n
  obtain ⟨h₁, h₂, h₃, h₄⟩ := hr
  unfold laneSum
  rcases h₂ with h₂ | h₂ <;> rcases h₃ with h₃ | h₃ | h₃ <;> rcases h₄ with h₄ | h₄ | h₄ <;>
    rw [h₁, h₂, h₃, h₄] <;> omega

/-- A lane with the gate closed (R121). -/
theorem laneDuty_closed (c : Config) (r : MixRow) {lift : S8} (m : Moments) (h : lift.toInt ≤ 0) :
    laneDuty c r lift m = 0 := by
  unfold laneDuty
  rw [if_neg (by omega)]
  rfl

/-- A lane with the gate open (R122 to R125). -/
theorem laneDuty_open (c : Config) (r : MixRow) {lift : S8} (m : Moments) (h : 0 < lift.toInt) :
    ((laneDuty c r lift m).toNat : Int) = dutyOfSum c (laneSum r m) := by
  have hb := dutyOfSum_bounds c (laneSum r m)
  have hm := c.dutyOk.2
  unfold laneDuty
  rw [if_pos h]
  exact toNat_ofInt_16 hb.1 (by omega)

/-- Every lane is in range, gate open or closed (R18). -/
theorem laneDuty_ok (c : Config) (r : MixRow) (lift : S8) (m : Moments) : dutyOk c (laneDuty c r lift m) := by
  unfold dutyOk
  by_cases h : 0 < lift.toInt
  · rw [laneDuty_open c r m h]; exact (dutyOfSum_bounds c _).2
  · rw [laneDuty_closed c r m (by omega)]; simpa using c.maxDuty_nonneg

theorem mixDuties_ok (c : Config) (lift : S8) (m : Moments) : (mixDuties c lift m).Ok c :=
  ⟨laneDuty_ok .., laneDuty_ok .., laneDuty_ok .., laneDuty_ok ..⟩

@[simp] theorem Block.mixed_rxq (k : Block) (c : Config) : (k.mixed c).rxq = k.rxq := rfl
@[simp] theorem Block.mixed_cmd (k : Block) (c : Config) : (k.mixed c).cmd = k.cmd := rfl
@[simp] theorem Block.mixed_cur (k : Block) (c : Config) : (k.mixed c).cur = k.cur := rfl
@[simp] theorem Block.mixed_prev (k : Block) (c : Config) : (k.mixed c).prev = k.prev := rfl
@[simp] theorem Block.mixed_mom (k : Block) (c : Config) : (k.mixed c).mom = k.mom := rfl
@[simp] theorem Block.mixed_gains (k : Block) (c : Config) : (k.mixed c).gains = k.gains := rfl
@[simp] theorem Block.mixed_offs (k : Block) (c : Config) : (k.mixed c).offs = k.offs := rfl
@[simp] theorem Block.mixed_ae (k : Block) (c : Config) : (k.mixed c).ae = mixDuties c k.cur.lift k.mom := rfl
@[simp] theorem Block.mixed_actOut (k : Block) (c : Config) : (k.mixed c).actOut = mixDuties c k.cur.lift k.mom := rfl
@[simp] theorem Block.mixed_actHist (k : Block) (c : Config) :
    (k.mixed c).actHist = k.actHist ++ [mixDuties c k.cur.lift k.mom] := rfl
@[simp] theorem Block.mixed_accHist (k : Block) (c : Config) : (k.mixed c).accHist = k.accHist := rfl

end Sys2Proof.Machine
end

