-- ==== Sys2Proof/Laws/Ops.lean ====
section
/-! SUPPORT. What one operation and one step can do: `exec` either ends in `State.put`, or refuses; nothing faults. -/

namespace Sys2Proof.Machine

theorem done_eq (s : State) (k : Block) (r : Response) : done s k r = .next (s.put k r) := rfl

theorem guarded_true (op : BitVec 4) (o : Out) : guarded true op o = o := rfl

/-- A guarded operation that goes on had its operands in range. -/
theorem guarded_next {ok : Bool} {op : BitVec 4} {o : Out} {t : State} (h : guarded ok op o = .next t) :
    ok = true ∧ o = .next t := by
  cases ok
  · exact absurd h (by simp [guarded])
  · exact ⟨rfl, h⟩

/-- The block and the response an operation ends with (R27 and the pseudocode of each rule), as one function of the
operation and the state; for an operation that is refused, what it would have written. -/
def effect (s : State) : Instr → Block × Response
  | .nop => (s.block, Response.none)
  | .push a => (s.block.rxAppend (a.extractLsb' 0 8), Response.none)
  | .decode =>
    (s.block.settle (examine s.cfg.header s.block.rxq), respValid (examine s.cfg.header s.block.rxq).valid)
  | .setcmd a b c d =>
    (s.block.writeAxes ⟨satAxis a.toInt, satAxis b.toInt, satAxis c.toInt, satAxis d.toInt⟩,
      respChanged (axesChanged s.block.cur ⟨satAxis a.toInt, satAxis b.toInt, satAxis c.toInt, satAxis d.toInt⟩))
  | .setgain g a => (s.block.writeGain g a.toInt, Response.none)
  | .gadj g .up => (s.block.writeGain g ((s.block.gains.get g).toNat + 1), Response.none)
  | .gadj g .down => (s.block.writeGain g ((s.block.gains.get g).toNat - 1), Response.none)
  | .setoff o a => (s.block.writeOffset o (a.extractLsb' 0 16), Response.none)
  | .setmom a b c d => (s.block.writeMoments ⟨a, b, c, d⟩, Response.none)
  | .momentManual => (s.block.writeMoments (momentsManual s.cfg s.block), Response.none)
  | .momentYaw sr => (s.block.writeMoments (momentsYaw s.cfg s.block sr), Response.none)
  | .momentFull phi theta sp sq sr =>
    (s.block.writeMoments (momentsFull s.cfg s.block phi theta sp sq sr), Response.none)
  | .mix => (s.block.mixed s.cfg, Response.none)
  | .setact a b c d =>
    (s.block.writeAct ⟨satDuty s.cfg a.toInt, satDuty s.cfg b.toInt, satDuty s.cfg c.toInt, satDuty s.cfg d.toInt⟩,
      Response.none)
  | .clrstate => (s.block.clear, Response.none)
  | .reset => (Block.reset s.cfg, Response.none)
  | .pkt f =>
    ((s.block.frameAtHead f).settle (examine s.cfg.header (frameBytes f ++ s.block.rxq)),
      respValid (examine s.cfg.header (frameBytes f ++ s.block.rxq)).valid)
  | .loadcmd =>
    (s.block.writeAxes ⟨satAxis s.block.cmd.axes.lift.toInt, satAxis s.block.cmd.axes.pitch.toInt,
        satAxis s.block.cmd.axes.roll.toInt, satAxis s.block.cmd.axes.yaw.toInt⟩,
      respChanged (axesChanged s.block.cur ⟨satAxis s.block.cmd.axes.lift.toInt,
        satAxis s.block.cmd.axes.pitch.toInt, satAxis s.block.cmd.axes.roll.toInt,
        satAxis s.block.cmd.axes.yaw.toInt⟩))
  | .zeroact =>
    (s.block.writeAct ⟨satDuty s.cfg 0, satDuty s.cfg 0, satDuty s.cfg 0, satDuty s.cfg 0⟩, Response.none)
  | .tickManual => ((s.block.writeMoments (momentsManual s.cfg s.block)).mixed s.cfg, Response.none)
  | .tickYaw sr => ((s.block.writeMoments (momentsYaw s.cfg s.block sr)).mixed s.cfg, Response.none)
  | .tickFull phi theta sp sq sr =>
    ((s.block.writeMoments (momentsFull s.cfg s.block phi theta sp sq sr)).mixed s.cfg, Response.none)
  | .pushframe f => (s.block.rxAppendFrame f, Response.none)
  | .sendcmd mode gain lift pitch roll yaw =>
    (s.block.rxAppendFrame (encodePayload s.cfg mode gain lift pitch roll yaw), Response.none)
  | .reservedC | .reservedD | .reservedE | .momentReservedSel3 | .momentReservedSel4to7 _ => (s.block, Response.none)

/-- A well-formed operation performs its effect. -/
theorem exec_of_wf {i : Instr} (s : State) (h : i.wf = true) :
    exec i s = .next (s.put (effect s i).1 (effect s i).2) := by
  cases i with
  | push a => exact congrArg (guarded · _ _) h
  | setoff o a => exact congrArg (guarded · _ _) h
  | momentYaw sr => exact congrArg (guarded · _ _) h
  | momentFull phi theta sp sq sr => exact congrArg (guarded · _ _) h
  | tickYaw sr => exact congrArg (guarded · _ _) h
  | tickFull phi theta sp sq sr => exact congrArg (guarded · _ _) h
  | gadj g dir => cases dir <;> rfl
  | reservedC | reservedD | reservedE | momentReservedSel3 | momentReservedSel4to7 => exact absurd h Bool.false_ne_true
  | _ => rfl

/-- An operation that is not well formed is refused (R70). -/
theorem exec_of_not_wf {i : Instr} (s : State) (h : i.wf = false) : ∃ r, exec i s = .refused r := by
  cases i with
  | push a => exact ⟨_, congrArg (guarded · _ _) h⟩
  | setoff o a => exact ⟨_, congrArg (guarded · _ _) h⟩
  | momentYaw sr => exact ⟨_, congrArg (guarded · _ _) h⟩
  | momentFull phi theta sp sq sr => exact ⟨_, congrArg (guarded · _ _) h⟩
  | tickYaw sr => exact ⟨_, congrArg (guarded · _ _) h⟩
  | tickFull phi theta sp sq sr => exact ⟨_, congrArg (guarded · _ _) h⟩
  | reservedC | reservedD | reservedE | momentReservedSel3 | momentReservedSel4to7 => exact ⟨_, rfl⟩
  | _ => exact absurd h.symm Bool.false_ne_true

/-- What an operation that answers a next state has done. -/
theorem exec_next {i : Instr} {s t : State} (h : exec i s = .next t) :
    i.wf = true ∧ t = s.put (effect s i).1 (effect s i).2 := by
  cases hw : i.wf with
  | true =>
    rw [exec_of_wf s hw] at h
    exact ⟨rfl, (Host.Outcome.next.inj h).symm⟩
  | false =>
    obtain ⟨r, hr⟩ := exec_of_not_wf s hw
    rw [hr] at h
    cases h

/-- What a step that answers a next state has done: an idle step, or one decoded operation. -/
theorem step_next {s t : State} (h : step s = .next t) :
    (s.inbox = [] ∧ t = s.put s.block Response.none) ∨
      ∃ code rest i, s.inbox = code :: rest ∧ decode code = .ok i ∧ exec i { s with inbox := rest } = .next t := by
  unfold step fetch at h
  cases hi : s.inbox with
  | nil =>
    rw [hi] at h
    exact .inl ⟨rfl, (Host.Outcome.next.inj h).symm⟩
  | cons code rest =>
    rw [hi] at h
    simp only at h
    cases hd : decode code with
    | error r => rw [hd] at h; cases h
    | ok i => rw [hd] at h; exact .inr ⟨code, rest, i, rfl, hd, h⟩

theorem step_withCode {code : Code} {i : Instr} (s : State) (h : decode code = .ok i) :
    step (s.withCode code) = exec i s := by
  simp [step, fetch, State.withCode, h]

end Sys2Proof.Machine
end

