-- ==== Sys2Proof/Laws/PerInstr.lean ====
section
/-! SUPPORT. A law of every operation as syntax: its request word carries the operation code of the table of R66, and a
frame or a pseudo-operation has no request word (R60, R73). -/

namespace Sys2Proof.Laws.OpField

/-- The column `op` of R66. -/
def opCode : Instr → Option (BitVec 4)
  | .nop => some 0x0
  | .push _ => some 0x1
  | .decode => some 0x2
  | .setcmd _ _ _ _ => some 0x3
  | .setgain _ _ => some 0x4
  | .gadj _ _ => some 0x5
  | .setoff _ _ => some 0x6
  | .setmom _ _ _ _ => some 0x7
  | .momentManual => some 0x8
  | .momentYaw _ => some 0x8
  | .momentFull _ _ _ _ _ => some 0x8
  | .mix => some 0x9
  | .setact _ _ _ _ => some 0xa
  | .clrstate => some 0xb
  | .reservedC => some 0xc
  | .reservedD => some 0xd
  | .reservedE => some 0xe
  | .reset => some 0xf
  | .momentReservedSel3 => some 0x8
  | .momentReservedSel4to7 _ => some 0x8
  | .pkt _ => none
  | .loadcmd => none
  | .zeroact => none
  | .tickManual => none
  | .tickYaw _ => none
  | .tickFull _ _ _ _ _ => none
  | .pushframe _ => none
  | .sendcmd _ _ _ _ _ _ => none

/-- The law. -/
def Statement (i : Instr) : Prop := ∀ q, encode i = .req q → opCode i = some (q.extractLsb' 164 4)

/-- The operation code of a packed request (R68). -/
theorem op_of_request {p : Ports} {q : RequestWord} (h : Code.req (pack p) = .req q) :
    some p.op = some (q.extractLsb' 164 4) := by
  rw [← Code.req.inj h]
  exact congrArg (fun u => some u.op) (unpack_pack p).symm

theorem nop : Statement .nop := fun _ h => op_of_request h
theorem push (a : S32) : Statement (.push a) := fun _ h => op_of_request h
theorem decode : Statement .decode := fun _ h => op_of_request h
theorem setcmd (a : S32) (b : S32) (c : S32) (d : S32) : Statement (.setcmd a b c d) := fun _ h => op_of_request h
theorem setgain (g : Gain) (a : S32) : Statement (.setgain g a) := fun _ h => op_of_request h
theorem gadj (g : Gain) (dir : Dir) : Statement (.gadj g dir) := fun _ h => op_of_request h
theorem setoff (o : Offset) (a : S32) : Statement (.setoff o a) := fun _ h => op_of_request h
theorem setmom (a : S32) (b : S32) (c : S32) (d : S32) : Statement (.setmom a b c d) := fun _ h => op_of_request h
theorem momentManual : Statement .momentManual := fun _ h => op_of_request h
theorem momentYaw (sr : S32) : Statement (.momentYaw sr) := fun _ h => op_of_request h
theorem momentFull (phi : S32) (theta : S32) (sp : S32) (sq : S32) (sr : S32) : Statement (.momentFull phi theta sp sq sr) := fun _ h => op_of_request h
theorem mix : Statement .mix := fun _ h => op_of_request h
theorem setact (a : S32) (b : S32) (c : S32) (d : S32) : Statement (.setact a b c d) := fun _ h => op_of_request h
theorem clrstate : Statement .clrstate := fun _ h => op_of_request h
theorem reservedC : Statement .reservedC := fun _ h => op_of_request h
theorem reservedD : Statement .reservedD := fun _ h => op_of_request h
theorem reservedE : Statement .reservedE := fun _ h => op_of_request h
theorem reset : Statement .reset := fun _ h => op_of_request h
theorem momentReservedSel3 : Statement .momentReservedSel3 := fun _ h => op_of_request h
theorem momentReservedSel4to7 (k : BitVec 2) : Statement (.momentReservedSel4to7 k) := fun _ h => op_of_request h
theorem pkt (f : Frame) : Statement (.pkt f) := fun _ h => by cases h
theorem loadcmd : Statement .loadcmd := fun _ h => by cases h
theorem zeroact : Statement .zeroact := fun _ h => by cases h
theorem tickManual : Statement .tickManual := fun _ h => by cases h
theorem tickYaw (sr : S32) : Statement (.tickYaw sr) := fun _ h => by cases h
theorem tickFull (phi : S32) (theta : S32) (sp : S32) (sq : S32) (sr : S32) : Statement (.tickFull phi theta sp sq sr) := fun _ h => by cases h
theorem pushframe (f : Frame) : Statement (.pushframe f) := fun _ h => by cases h
theorem sendcmd (mode : Byte) (gain : Byte) (lift : BitVec 7) (pitch : BitVec 7) (roll : BitVec 7) (yaw : BitVec 7) : Statement (.sendcmd mode gain lift pitch roll yaw) := fun _ h => by cases h

end Sys2Proof.Laws.OpField
end

