-- ==== Sys2Proof/Tests/Slice0.lean ====
section
/-! SUPPORT. Tests: expected results are those of 95_test_vectors.md (an id V-… in a docstring) or worked out by hand
from the rule named. REF is the configuration unless a docstring says otherwise. After them, for each obligation that
has hypotheses, a witness that meets them. -/

namespace Sys2Proof.Tests

open Sys2Proof Sys2Proof.Machine

/-! ### Helpers -/

/-- The reset state in REF. -/
def base : State := State.boot Config.ref

/-- Four axes in the order of R8: lift, pitch, roll, yaw. -/
def axes (l p r y : Int) : Axes := ⟨BitVec.ofInt 8 l, BitVec.ofInt 8 p, BitVec.ofInt 8 r, BitVec.ofInt 8 y⟩

/-- Four moments in the order of R8. -/
def moments (z l m n : Int) : Moments := ⟨port z, port l, port m, port n⟩

/-- `base` with its block changed. -/
def onBlock (f : Block → Block) : State := { base with block := f base.block }

/-- `base` with the given commanded axes and moments. -/
def flying (c : Axes) (m : Moments) : State := onBlock fun k => { k with cur := c, mom := m }

/-- The start state of the DECODE vectors: every snapshot field 9. -/
def polled (q : List Byte) : State := onBlock fun k => { k with rxq := q, cmd := ⟨9, 9, axes 9 9 9 9⟩ }

/-- `base` with the given gains. -/
def tuned (p p1 p2 : Byte) : State := onBlock fun k => { k with gains := ⟨p, p1, p2⟩ }

/-- The state an operation leaves. -/
def after (i : Instr) (s : State) : Option State :=
  match exec i s with
  | .next t => some t
  | .fault _ => none
  | .refused _ => none

/-- The word of a request whose operands are zero, from its control byte (R68). -/
def ctl (b : Nat) : Nat := b * 2 ^ 160

/-! ### Configuration: the checks of R5 -/

theorem test_ref_well_formed : ConfigData.wellFormed {} = true := by decide

/-- R5 item 1. -/
theorem test_wf_refuses_effort_bounds :
    ConfigData.wellFormed { minEffort := -1 } = false ∧
    ConfigData.wellFormed { minEffort := 16001 } = false ∧
    ConfigData.wellFormed { maxEffort := 2147483648, dutyShift := 31 } = false := by decide

/-- R5 item 2. -/
theorem test_wf_refuses_bias :
    ConfigData.wellFormed { effortBias := 2147483648 } = false ∧
    ConfigData.wellFormed { effortBias := -2147483649 } = false := by decide

/-- R5 item 3. -/
theorem test_wf_refuses_shift : ConfigData.wellFormed { dutyShift := 32 } = false := by decide

/-- R5 item 4. -/
theorem test_wf_refuses_duty_bound :
    ConfigData.wellFormed { maxDuty := 999 } = false ∧ ConfigData.wellFormed { maxDuty := 65536 } = false := by decide

/-- R5 item 5: each weight, and the alternating sign. -/
theorem test_wf_refuses_weights :
    ConfigData.wellFormed { mixCoef := ⟨⟨2, 0, 2, -1⟩, ⟨1, -2, 0, 1⟩, ⟨1, 0, -2, -1⟩, ⟨1, 2, 0, 1⟩⟩ } = false ∧
    ConfigData.wellFormed { mixCoef := ⟨⟨1, 0, 2, -1⟩, ⟨1, -1, 0, 1⟩, ⟨1, 0, -2, -1⟩, ⟨1, 2, 0, 1⟩⟩ } = false ∧
    ConfigData.wellFormed { mixCoef := ⟨⟨1, 0, 3, -1⟩, ⟨1, -2, 0, 1⟩, ⟨1, 0, -2, -1⟩, ⟨1, 2, 0, 1⟩⟩ } = false ∧
    ConfigData.wellFormed { mixCoef := ⟨⟨1, 0, 2, 0⟩, ⟨1, -2, 0, 0⟩, ⟨1, 0, -2, 0⟩, ⟨1, 2, 0, 0⟩⟩ } = false ∧
    ConfigData.wellFormed { mixCoef := ⟨⟨1, 0, 2, 1⟩, ⟨1, -2, 0, 1⟩, ⟨1, 0, -2, 1⟩, ⟨1, 2, 0, 1⟩⟩ } = false := by
  decide

/-- R5 item 6: each scale. -/
theorem test_wf_refuses_scales :
    ConfigData.wellFormed { kLift := 0 } = false ∧ ConfigData.wellFormed { kLift := 65537 } = false ∧
    ConfigData.wellFormed { kRoll := 65537 } = false ∧ ConfigData.wellFormed { kPitch := -65537 } = false ∧
    ConfigData.wellFormed { kYaw := 65537 } = false ∧ ConfigData.wellFormed { kRset := -65537 } = false ∧
    ConfigData.wellFormed { kAset := 65537 } = false := by decide

/-- R5 item 7: each reset value. -/
theorem test_wf_refuses_gain_resets :
    ConfigData.wellFormed { pRst := 128 } = false ∧ ConfigData.wellFormed { p1Rst := -1 } = false ∧
    ConfigData.wellFormed { p2Rst := 128 } = false := by decide

/-! ### Instructions: the checks of R70 -/

/-- Each ranged operand, one past its range (V-OFF-3, V-REQ-1). -/
theorem test_wf_refuses_operands :
    Instr.wf (.push 256) = false ∧ Instr.wf (.push (port (-1))) = false ∧
    Instr.wf (.setoff .pOff 32768) = false ∧ Instr.wf (.setoff .pOff (port (-32769))) = false ∧
    Instr.wf (.momentYaw 32768) = false ∧ Instr.wf (.tickYaw 32768) = false ∧
    Instr.wf (.momentFull 32768 0 0 0 0) = false ∧ Instr.wf (.momentFull 0 32768 0 0 0) = false ∧
    Instr.wf (.momentFull 0 0 32768 0 0) = false ∧ Instr.wf (.momentFull 0 0 0 32768 0) = false ∧
    Instr.wf (.momentFull 0 0 0 0 32768) = false ∧ Instr.wf (.tickFull 0 0 32768 0 0) = false := by decide

theorem test_wf_refuses_reserved :
    Instr.wf .reservedC = false ∧ Instr.wf .reservedD = false ∧ Instr.wf .reservedE = false ∧
    Instr.wf .momentReservedSel3 = false ∧ Instr.wf (.momentReservedSel4to7 2) = false := by decide

theorem test_wf_takes_bounds :
    Instr.wf (.push 255) = true ∧ Instr.wf (.push 0) = true ∧ Instr.wf (.setoff .rOff 32767) = true ∧
    Instr.wf (.setoff .rOff (port (-32768))) = true ∧
    Instr.wf (.momentFull 32767 (port (-32768)) 32767 (port (-32768)) 32767) = true := by decide

/-- A packet is valid by its header and all 8 bits of its checksum byte (V-DEC-5 to V-DEC-8). -/
theorem test_valid_packet :
    validPacket Config.ref ⟨0x80, 0x01, 0x00, 0x20, 0x00, 0x00, 0x00, 0x50⟩ = true ∧
    validPacket Config.ref ⟨0x80, 0x01, 0x00, 0x20, 0x00, 0x00, 0x00, 0x51⟩ = false ∧
    validPacket Config.ref ⟨0x80, 0x01, 0x00, 0x20, 0x00, 0x00, 0x00, 0xD0⟩ = false ∧
    validPacket Config.ref ⟨0x81, 0x01, 0x00, 0x20, 0x00, 0x00, 0x00, 0x50⟩ = false := by decide

/-! ### Decoding: words from R61 and R68 -/

/-- The sixteen operation codes of R66, in order; `op` 0xF is the code that `decodePorts` leaves to its last arm. -/
theorem test_control_bytes :
    (List.range 16).map (fun k => decodeTableWord 168 (ctl (16 * k))) =
      [some .nop, some (.push 0), some .decode, some (.setcmd 0 0 0 0), some (.setgain .p 0), some (.gadj .p .up),
        some (.setoff .pOff 0), some (.setmom 0 0 0 0), some .momentManual, some .mix, some (.setact 0 0 0 0),
        some .clrstate, some .reservedC, some .reservedD, some .reservedE, some .reset] := by decide

/-- The eight gain selectors of SETGAIN (R67). -/
theorem test_decode_setgain_selectors :
    [0x40, 0x42, 0x44, 0x46, 0x48, 0x4A, 0x4C, 0x4E].map (fun b => decodeTableWord 168 (ctl b)) =
      [some (.setgain .p 0), some (.setgain .p1 0), some (.setgain .p2 0), none, none, none, none, none] := by decide

/-- GADJ: selector and direction (R67; `52`, `53`, `54`, `55` of programs P4 and R68), the reserved selectors. -/
theorem test_decode_gadj :
    [0x50, 0x51, 0x52, 0x53, 0x54, 0x55, 0x56, 0x59, 0x5A, 0x5D, 0x5E].map (fun b => decodeTableWord 168 (ctl b)) =
      [some (.gadj .p .up), some (.gadj .p .down), some (.gadj .p1 .up), some (.gadj .p1 .down), some (.gadj .p2 .up),
        some (.gadj .p2 .down), none, none, none, none, none] := by decide

/-- The eight offset selectors of SETOFF (R67). -/
theorem test_decode_setoff_selectors :
    [0x60, 0x62, 0x64, 0x66, 0x68, 0x6A, 0x6C, 0x6E].map (fun b => decodeTableWord 168 (ctl b)) =
      [some (.setoff .pOff 0), some (.setoff .qOff 0), some (.setoff .rOff 0), some (.setoff .phiOff 0),
        some (.setoff .thetaOff 0), none, none, none] := by decide

/-- The eight policies of MOMENT (R67). -/
theorem test_decode_moment_policies :
    [0x80, 0x82, 0x84, 0x86, 0x88, 0x8A, 0x8C, 0x8E].map (fun b => decodeTableWord 168 (ctl b)) =
      [some .momentManual, some (.momentYaw 0), some (.momentFull 0 0 0 0 0), some .momentReservedSel3,
        some (.momentReservedSel4to7 0), some (.momentReservedSel4to7 1), some (.momentReservedSel4to7 2),
        some (.momentReservedSel4to7 3)] := by decide

/-- Whole words: `op`, `sel`, `dir`, then `a` to `e`, each operand in its own 32 bits (R68; P1 to P4). -/
theorem test_decode_words :
    decodeTableWord 168 0x1000000080_00000000_00000000_00000000_00000000 = some (.push 0x80) ∧
    decodeTableWord 168 0x300000012C_FFFFFFFC_00000006_FFFFFF38_00000000 =
      some (.setcmd 300 (port (-4)) 6 (port (-200))) ∧
    decodeTableWord 168 0x42000000C8_00000000_00000000_00000000_00000000 = some (.setgain .p1 200) ∧
    decodeTableWord 168 0x66FFFFFFF4_00000000_00000000_00000000_00000000 = some (.setoff .phiOff (port (-12))) ∧
    decodeTableWord 168 0x707FFFFFFF_00000001_00000002_80000000_00000000 =
      some (.setmom 2147483647 1 2 (port (-2147483648))) ∧
    decodeTableWord 168 0x8200000000_00000000_00000000_00000000_FFFFFFEF = some (.momentYaw (port (-17))) ∧
    decodeTableWord 168 0x84000000C4_FFFFFFC0_0000001E_FFFFFFE2_FFFFFFD0 =
      some (.momentFull 196 (port (-64)) 30 (port (-30)) (port (-48))) ∧
    decodeTableWord 168 0xA000000066_FFFFFFAB_00000064_FFFFFFA9_00000000 =
      some (.setact 102 (port (-85)) 100 (port (-87))) := by decide

/-- A field the operation does not use is ignored whatever it holds (R67): NOP, MIX and RESET with every other bit set. -/
theorem test_decode_ignores_unused :
    decodeTableWord 168 0x0FFFFFFFFF_FFFFFFFF_FFFFFFFF_FFFFFFFF_FFFFFFFF = some .nop ∧
    decodeTableWord 168 0x9FFFFFFFFF_FFFFFFFF_FFFFFFFF_FFFFFFFF_FFFFFFFF = some .mix ∧
    decodeTableWord 168 0xFFFFFFFFFF_FFFFFFFF_FFFFFFFF_FFFFFFFF_FFFFFFFF = some .reset := by decide

/-- The frame of V-ENC-2 as the string of R61. -/
theorem test_decode_packet :
    decodeTableWord 64 0x800200287D054049 = some (.pkt ⟨0x80, 0x02, 0x00, 0x28, 0x7D, 0x05, 0x40, 0x49⟩) := by decide

/-- A pseudo-operation, which has no code (R73), by its line. -/
theorem test_decode_lines :
    decode (encode .loadcmd) = .ok .loadcmd ∧ decode (encode .zeroact) = .ok .zeroact ∧
    decode (encode .tickManual) = .ok .tickManual ∧ decode (encode (.tickYaw 5)) = .ok (.tickYaw 5) ∧
    decode (encode (.tickFull 1 2 3 4 5)) = .ok (.tickFull 1 2 3 4 5) ∧
    decode (encode (.pushframe ⟨1, 2, 3, 4, 5, 6, 7, 8⟩)) = .ok (.pushframe ⟨1, 2, 3, 4, 5, 6, 7, 8⟩) ∧
    decode (encode (.sendcmd 1 0 32 0 0 127)) = .ok (.sendcmd 1 0 32 0 0 127) := ⟨rfl, rfl, rfl, rfl, rfl, rfl, rfl⟩

/-- The requests of P3 step 1 to 3 and of P4 from the encoder. -/
theorem test_encode_words :
    encode .reset = .req 0xF00000000000000000000000000000000000000000#168 ∧
    encode (.setcmd 32 0 0 0) = .req 0x300000002000000000000000000000000000000000#168 ∧
    encode .mix = .req 0x900000000000000000000000000000000000000000#168 ∧
    encode (.gadj .p2 .down) = .req 0x550000000000000000000000000000000000000000#168 := by decide

/-! ### The combinational functions -/

/-- V-CHK-1 to V-CHK-9. -/
theorem test_checksum :
    chk7 0x80 0x00 0x00 0x00 0x00 0x00 0x00 = 0x40 ∧ chk7 0x80 0x01 0x00 0x20 0x00 0x00 0x00 = 0x50 ∧
    chk7 0x80 0x02 0x04 0x7F 0x40 0x3F 0x01 = 0x43 ∧ chk7 0x80 0x55 0x2A 0x10 0x7E 0x41 0x33 = 0x71 ∧
    chk7 0x80 0x7F 0x7F 0x7F 0x7F 0x7F 0x7F = 0x40 ∧ chk7 0x80 0xFF 0xFF 0xFF 0xFF 0xFF 0xFF = 0x40 ∧
    chk7 0x80 0x80 0x00 0x00 0x00 0x00 0x00 = 0x00 ∧ chk7 0x80 0x00 0x00 0x01 0x00 0x00 0x00 = 0x40 ∧
    chk7 0x80 0x00 0x00 0x02 0x00 0x00 0x00 = 0x41 := by decide

/-- V-SR-1 to V-SR-13. -/
theorem test_sign_restorer :
    [0x00, 0x01, 0x3F, 0x40, 0x41, 0x7F, 0x7D, 0x20, 0x64, 0x80, 0xBF, 0xC0, 0xFF].map (fun b => (srest b).toInt) =
      [0, 1, 63, -64, -63, -1, -3, 32, -28, -128, -65, -64, -1] := by decide

/-- V-ENC-1 to V-ENC-8 (an axis `v` as its 7-bit pattern). -/
theorem test_encode_payload :
    encodePayload Config.ref 0x01 0x00 32 0 0 0 = ⟨0x80, 0x01, 0x00, 0x20, 0x00, 0x00, 0x00, 0x50⟩ ∧
    encodePayload Config.ref 0x02 0x00 40 (-3) 5 (-64) = ⟨0x80, 0x02, 0x00, 0x28, 0x7D, 0x05, 0x40, 0x49⟩ ∧
    encodePayload Config.ref 0x01 0x00 63 (-64) (-1) 1 = ⟨0x80, 0x01, 0x00, 0x3F, 0x40, 0x7F, 0x01, 0x40⟩ ∧
    encodePayload Config.ref 0x01 0x00 40 (-3) 5 (-64) = ⟨0x80, 0x01, 0x00, 0x28, 0x7D, 0x05, 0x40, 0x48⟩ ∧
    encodePayload Config.ref 0x01 0x00 0 (-3) 5 63 = ⟨0x80, 0x01, 0x00, 0x00, 0x7D, 0x05, 0x3F, 0x63⟩ ∧
    encodePayload Config.ref 0x00 0x00 0 0 0 0 = ⟨0x80, 0x00, 0x00, 0x00, 0x00, 0x00, 0x00, 0x40⟩ ∧
    encodePayload Config.ref 0xFF 0xFF (-1) (-1) (-1) (-1) = ⟨0x80, 0xFF, 0xFF, 0x7F, 0x7F, 0x7F, 0x7F, 0x40⟩ ∧
    encodePayload Config.ref 0x01 0x02 0 0 0 0 = ⟨0x80, 0x01, 0x02, 0x00, 0x00, 0x00, 0x00, 0x41⟩ := by decide

/-- V-SAT-1 to V-SAT-9. -/
theorem test_clamp :
    sat 127 (-128) 127 = 127 ∧ sat 128 (-128) 127 = 127 ∧ sat (-128) (-128) 127 = -128 ∧
    sat (-129) (-128) 127 = -128 ∧ sat 2147483647 (-128) 127 = 127 ∧ sat (-2147483648) 0 127 = 0 ∧
    sat 1599 1600 16000 = 1600 ∧ sat 16001 1600 16000 = 16000 ∧ sat 5 5 5 = 5 := by decide

/-- The divisions V-MIX-9, V-MIX-10 and V-MIX-12 work out. -/
theorem test_division :
    tdiv (-4294967297) 4 = -1073741824 ∧ tdiv (-7) 4 = -1 ∧ tdiv (-3) 4 = 0 ∧ tdiv 5114 4 = 1278 ∧
    tdiv 5126 4 = 1281 := by decide

/-- V-DEC-1 to V-DEC-4, V-DEC-6 to V-DEC-8, V-DEC-10, V-DEC-14: the drops, with their labels (R160, R166). -/
theorem test_examine_drops :
    examine 0x80 [] = .dropped .empty ∧ examine 0x80 [0x11, 0x22, 0x33] = .dropped .nosync ∧
    examine 0x80 [0x80] = .dropped .short ∧
    examine 0x80 [0x80, 0x01, 0x00, 0x20, 0x00, 0x00, 0x00] = .dropped .short ∧
    examine 0x80 [0x80, 0x01, 0x00, 0x20, 0x00, 0x00, 0x00, 0x51] = .dropped .chk ∧
    examine 0x80 [0x80, 0x01, 0x00, 0x20, 0x00, 0x00, 0x00, 0xD0] = .dropped .chk ∧
    examine 0x80 [0x80, 0x01, 0x00, 0x22, 0x00, 0x00, 0x00, 0x50] = .dropped .chk ∧
    examine 0x80 [0x80, 0x80, 0x01, 0x00, 0x20, 0x00, 0x00, 0x00, 0x50] = .dropped .chk ∧
    examine 0x80 [0x01, 0x00, 0x20, 0x00, 0x00, 0x00, 0x50, 0x80, 0x01, 0x00, 0x20] = .dropped .short := by decide

/-- V-DEC-9, V-DEC-11 to V-DEC-13, V-DEC-15 to V-DEC-17: the acceptances. -/
theorem test_examine_accepts :
    examine 0x80 [0x80, 0x01, 0x00, 0x21, 0x00, 0x00, 0x00, 0x50] = .accepted ⟨1, 0, axes 33 0 0 0⟩ ∧
    examine 0x80 [0x80, 0x01, 0x00, 0x20, 0x00, 0x00, 0x00, 0x50, 0x80, 0x01, 0x00, 0x28, 0x7D, 0x05, 0x40, 0x48] =
      .accepted ⟨1, 0, axes 32 0 0 0⟩ ∧
    examine 0x80 [0x80, 0x80, 0x80, 0xBF, 0xC0, 0xFF, 0x7F, 0x3F] =
      .accepted ⟨0x80, 0x80, axes (-65) (-64) (-1) (-1)⟩ ∧
    examine 0x80 [0x80, 0x01, 0x00, 0x28, 0x80, 0x05, 0x40, 0x36] = .accepted ⟨1, 0, axes 40 (-128) 5 (-64)⟩ ∧
    examine 0x80 [0x80, 0x03, 0x04, 0x64, 0x00, 0x00, 0x00, 0x71] = .accepted ⟨3, 4, axes (-28) 0 0 0⟩ ∧
    examine 0x80 [0x80, 0x02, 0x04, 0x7F, 0x40, 0x3F, 0x01, 0x43] = .accepted ⟨2, 4, axes (-1) (-64) 63 1⟩ ∧
    examine 0x80 [0x80, 0x01, 0x00, 0x20, 0x04, 0x00, 0x04, 0x50] = .accepted ⟨1, 0, axes 32 4 0 4⟩ := by decide

/-- V-MIX-1 to V-MIX-9. -/
theorem test_mix_duties_first :
    mixDuties Config.ref 32 (moments 8192 0 0 0) = ⟨228, 228, 228, 228⟩ ∧
    mixDuties Config.ref 0 (moments 8192 500 500 500) = ⟨0, 0, 0, 0⟩ ∧
    mixDuties Config.ref (-5) (moments (-1280) 0 0 0) = ⟨0, 0, 0, 0⟩ ∧
    mixDuties Config.ref 40 (moments 10240 (-192) 320 0) = ⟨270, 266, 250, 254⟩ ∧
    mixDuties Config.ref 127 (moments 32512 8128 8128 16256) = ⟨608, 608, 100, 1000⟩ ∧
    mixDuties Config.ref 1 (moments 256 0 0 0) = ⟨104, 104, 104, 104⟩ ∧
    mixDuties Config.ref 1 (moments 256 (-8128) (-8128) (-16384)) = ⟨106, 102, 614, 100⟩ ∧
    mixDuties Config.ref 100 (moments 2147483647 2147483647 2147483647 (-2147483648)) = ⟨1000, 100, 100, 1000⟩ ∧
    mixDuties Config.ref 100 (moments (-2147483648) (-2147483648) (-2147483648) 2147483647) =
      ⟨100, 1000, 100, 100⟩ := by decide

/-- V-MIX-10 to V-MIX-18. -/
theorem test_mix_duties_second :
    mixDuties Config.ref 10 (moments (-7) 0 0 0) = ⟨100, 100, 100, 100⟩ ∧
    mixDuties Config.ref 10 (moments 0 0 0 (-7)) = ⟨100, 100, 100, 100⟩ ∧
    mixDuties Config.ref 20 (moments 5120 0 (-3) 0) = ⟨179, 180, 180, 180⟩ ∧
    mixDuties Config.ref 1 (moments 0 0 0 0) = ⟨100, 100, 100, 100⟩ ∧
    mixDuties Config.ref (-128) (moments 2147483647 0 0 0) = ⟨0, 0, 0, 0⟩ ∧
    mixDuties Config.ref 5 (moments 57600 0 0 0) = ⟨1000, 1000, 1000, 1000⟩ ∧
    mixDuties Config.ref 5 (moments 57604 0 0 0) = ⟨1000, 1000, 1000, 1000⟩ ∧
    mixDuties Config.ref 5 (moments 57596 0 0 0) = ⟨999, 999, 999, 999⟩ ∧
    mixDuties Config.ref 40 (moments 10240 320 (-192) (-8192)) = ⟨382, 122, 394, 142⟩ := by decide

/-- The configuration of the rounding vector: REF with `EFFORT_BIAS` 2000. -/
def biased : Config := { effortBias := 2000 }

/-- The rounding vector (R129): toward zero gives 125. -/
theorem test_mix_rounds_toward_zero :
    mixDuties biased 1 (moments (-3) 0 0 0) = ⟨125, 125, 125, 125⟩ := by decide

/-- The lane sums of V-MOM-5, two of which exceed 32 bits (R131). -/
theorem test_lane_sums_are_exact :
    [Config.ref.mixCoef.r0, Config.ref.mixCoef.r1, Config.ref.mixCoef.r2, Config.ref.mixCoef.r3].map
        (fun r => laneSum r (moments 8323072 1073676034 1073676034 1065353089)) =
      [1090322051, -1073675907, -3204382085, 3221028229] := by decide

/-! ### One operation on one state -/

/-- V-NOP-1: nothing changes, and the response is empty even after a `valid`. -/
theorem test_nop : after .nop { base with resp := ⟨true, true⟩ } = some base := by decide

/-- P2 step 2: the byte goes to the newest end. -/
theorem test_push : (after (.push 0x22) (polled [0x11])).map (·.block.rxq) = some [0x11, 0x22] := by decide

/-- V-REQ-1. -/
theorem test_push_refuses : exec (.push 256) base = .refused (.operandOutOfRange 0x1) := rfl

/-- V-DEC-5: garbage before, bytes behind, all gone. -/
theorem test_decode_accept :
    (after .decode (polled [0x11, 0x80, 0x01, 0x00, 0x20, 0x00, 0x00, 0x00, 0x50, 0x99, 0x80])).map
        (fun t => (t.resp.valid, t.block.cmd, t.block.accHist, t.block.rxq)) =
      some (true, ⟨1, 0, axes 32 0 0 0⟩, 1, []) := by decide

/-- V-DEC-6. -/
theorem test_decode_drop :
    (after .decode (polled [0x80, 0x01, 0x00, 0x20, 0x00, 0x00, 0x00, 0x51])).map
        (fun t => (t.resp.valid, t.block.cmd, t.block.accHist, t.block.rxq)) =
      some (false, ⟨9, 9, axes 9 9 9 9⟩, 0, []) := by decide

/-- V-ENC-2 as a frame at the read position. -/
theorem test_pkt :
    (after (.pkt ⟨0x80, 0x02, 0x00, 0x28, 0x7D, 0x05, 0x40, 0x49⟩) base).map
        (fun t => (t.resp.valid, t.block.cmd, t.block.accHist)) =
      some (true, ⟨2, 0, axes 40 (-3) 5 (-64)⟩, 1) := by decide

/-- V-CMD-4. -/
theorem test_setcmd_saturates :
    (after (.setcmd 300 (port (-4)) 6 (port (-200))) base).map
        (fun t => (t.block.cur, t.block.prev, t.resp.changed)) =
      some (axes 127 (-4) 6 (-128), axes 0 0 0 0, true) := by decide

/-- V-CMD-5: the comparison is on saturated values. -/
theorem test_setcmd_unchanged :
    (after (.setcmd 128 (port (-4)) 6 (port (-129))) (flying (axes 127 (-4) 6 (-128)) (moments 0 0 0 0))).map
        (fun t => (t.block.cur, t.block.prev, t.resp.changed)) =
      some (axes 127 (-4) 6 (-128), axes 127 (-4) 6 (-128), false) := by decide

/-- V-CMD-7. -/
theorem test_loadcmd :
    (after .loadcmd (onBlock fun k => { k with cmd := ⟨1, 0, axes 40 (-3) 5 (-64)⟩ })).map
        (fun t => (t.block.cur, t.block.prev, t.resp.changed)) =
      some (axes 40 (-3) 5 (-64), axes 0 0 0 0, true) := by decide

/-- V-GAIN-2. -/
theorem test_setgain_high : (after (.setgain .p1 200) base).map (·.block.gains) = some ⟨0, 127, 0⟩ := by decide

/-- V-GAIN-3. -/
theorem test_setgain_low : (after (.setgain .p (port (-1))) (tuned 50 0 0)).map (·.block.gains) = some ⟨0, 0, 0⟩ := by
  decide

/-- V-GAIN-5. -/
theorem test_gadj_up_saturates : (after (.gadj .p .up) (tuned 127 8 9)).map (·.block.gains) = some ⟨127, 8, 9⟩ := by
  decide

/-- V-GAIN-7. -/
theorem test_gadj_down_saturates : (after (.gadj .p1 .down) (tuned 7 0 9)).map (·.block.gains) = some ⟨7, 0, 9⟩ := by
  decide

/-- V-OFF-1. -/
theorem test_setoff :
    (after (.setoff .rOff (port (-17))) base).map (·.block.offs) = some ⟨0, 0, BitVec.ofInt 16 (-17), 0, 0⟩ := by decide

/-- V-OFF-3. -/
theorem test_setoff_refuses : exec (.setoff .pOff 32768) base = .refused (.operandOutOfRange 0x6) := rfl

/-- V-MOM-7. -/
theorem test_setmom :
    (after (.setmom 2147483647 2147483647 2147483647 (port (-2147483648))) base).map (·.block.mom) =
      some (moments 2147483647 2147483647 2147483647 (-2147483648)) := by decide

/-- V-MOM-1. -/
theorem test_moment_manual :
    (after .momentManual (flying (axes 40 5 (-3) (-64)) (moments 0 0 0 0))).map (·.block.mom) =
      some (moments 10240 (-192) 320 (-8192)) := by decide

/-- The start state of V-MOM-2. -/
def yawing : State :=
  onBlock fun k => { k with cur := axes 40 5 (-3) (-64), gains := ⟨4, 0, 0⟩, offs := ⟨0, 0, 7, 0, 0⟩ }

/-- V-MOM-2. -/
theorem test_moment_yaw :
    (after (.momentYaw (port (-17))) yawing).map (·.block.mom) = some (moments 10240 (-192) 320 (-4000)) := by decide +kernel

/-- The start state of V-MOM-3. -/
def tilting : State :=
  onBlock fun k => { k with cur := axes 127 (-4) 6 (-128), gains := ⟨3, 2, 1⟩, offs := ⟨0, 0, 0, 100, 0⟩ }

/-- V-MOM-3. -/
theorem test_moment_full :
    (after (.momentFull 196 (port (-64)) 30 (port (-30)) (port (-48))) tilting).map (·.block.mom) =
      some (moments 32512 (-30) 30 (-6000)) := by decide +kernel

/-- The largest well-formed scales, of V-MOM-5. -/
def steep : Config := { kLift := 65536, kRoll := 65536, kPitch := 65536, kYaw := 65536, kRset := 65536, kAset := 65536 }

/-- V-MOM-5: the extreme of R119. -/
theorem test_moment_full_extreme :
    momentsFull steep
        { base.block with
          cur := axes 127 127 127 127, gains := ⟨127, 127, 127⟩, offs := ⟨32767, 32767, 32767, 32767, 32767⟩ }
        (port (-32768)) (port (-32768)) (port (-32768)) (port (-32768)) (port (-32768)) =
      moments 8323072 1073676034 1073676034 1065353089 := by decide

/-- V-MIX-4, with its one push. -/
theorem test_mix_open :
    (after .mix (flying (axes 40 0 0 0) (moments 10240 (-192) 320 0))).map
        (fun t => (t.block.ae, t.block.actOut, t.block.actHist)) =
      some (⟨270, 266, 250, 254⟩, ⟨270, 266, 250, 254⟩, [⟨270, 266, 250, 254⟩]) := by decide

/-- V-MIX-2: the closed gate pushes zeros. -/
theorem test_mix_closed :
    (after .mix (flying (axes 0 0 0 0) (moments 8192 500 500 500))).map (fun t => (t.block.ae, t.block.actHist)) =
      some (⟨0, 0, 0, 0⟩, [⟨0, 0, 0, 0⟩]) := by decide

/-- P3 step 3. -/
theorem test_tick_manual :
    (after .tickManual (flying (axes 32 0 0 0) (moments 0 0 0 0))).map (fun t => (t.block.mom, t.block.actHist)) =
      some (moments 8192 0 0 0, [⟨228, 228, 228, 228⟩]) := by decide

/-- V-MOM-2, then MIX by hand: `s = (14880, 6624, 13600, 5856)`, `e = (5320, 3256, 5000, 3064)`. -/
theorem test_tick_yaw :
    (after (.tickYaw (port (-17))) yawing).map (fun t => (t.block.mom, t.block.ae)) =
      some (moments 10240 (-192) 320 (-4000), ⟨332, 203, 312, 191⟩) := by decide +kernel

/-- P4 steps 12 and 13. -/
theorem test_tick_full :
    (after (.tickFull 196 (port (-64)) 30 (port (-30)) (port (-48))) tilting).map
        (fun t => (t.block.mom, t.block.ae)) =
      some (moments 32512 (-30) 30 (-6000), ⟨702, 515, 700, 513⟩) := by decide +kernel

/-- V-ACT-1. -/
theorem test_setact_clamps :
    (after (.setact 1200 (port (-5)) 300 1000) base).map (fun t => (t.block.ae, t.block.actOut, t.block.actHist)) =
      some (⟨1000, 0, 300, 1000⟩, ⟨1000, 0, 300, 1000⟩, [⟨1000, 0, 300, 1000⟩]) := by decide

/-- V-ACT-3: no lift gate. -/
theorem test_setact_ignores_gate :
    (after (.setact 500 500 500 500) (flying (axes (-9) 0 0 0) (moments 0 0 0 0))).map (·.block.ae) =
      some ⟨500, 500, 500, 500⟩ := by decide

/-- V-ACT-2. -/
theorem test_zeroact :
    (after .zeroact (onBlock fun k => { k with actHist := [⟨5, 6, 7, 8⟩] })).map
        (fun t => (t.block.ae, t.block.actHist)) =
      some (⟨0, 0, 0, 0⟩, [⟨5, 6, 7, 8⟩, ⟨0, 0, 0, 0⟩]) := by decide

/-- V-CLR-1. -/
theorem test_clrstate :
    (after .clrstate (onBlock fun k =>
        { k with
          cur := axes 40 (-3) 5 (-64), prev := axes 1 2 3 4, mom := moments 10240 320 (-192) (-8192),
          gains := ⟨3, 0, 0⟩, ae := ⟨382, 122, 394, 142⟩ })).map (·.block) =
      some { base.block with gains := ⟨3, 0, 0⟩, ae := ⟨382, 122, 394, 142⟩ } := by decide

/-- RESET (R180) in REF. -/
theorem test_reset :
    (after .reset (onBlock fun k =>
        { k with rxq := [1], gains := ⟨3, 2, 1⟩, actHist := [⟨1, 1, 1, 1⟩], accHist := 4 })).map (·.block) =
      some base.block := by decide

/-- P1 step 2. -/
theorem test_pushframe :
    (after (.pushframe ⟨0x80, 0x01, 0x00, 0x20, 0x00, 0x00, 0x00, 0x50⟩) base).map (·.block.rxq) =
      some [0x80, 0x01, 0x00, 0x20, 0x00, 0x00, 0x00, 0x50] := by decide

/-- V-ENC-3 behind a byte that waits. -/
theorem test_sendcmd :
    (after (.sendcmd 0x01 0x00 63 (-64) (-1) 1) (polled [0x11])).map (·.block.rxq) =
      some [0x11, 0x80, 0x01, 0x00, 0x3F, 0x40, 0x7F, 0x01, 0x40] := by decide

/-- V-REQ-1: the reserved codes. -/
theorem test_reserved_stop :
    exec .reservedC base = .refused (.reservedOperation 0xC) ∧
    exec .reservedD base = .refused (.reservedOperation 0xD) ∧
    exec .reservedE base = .refused (.reservedOperation 0xE) ∧
    exec .momentReservedSel3 base = .refused (.reservedSelector 0x8 3) ∧
    exec (.momentReservedSel4to7 1) base = .refused (.reservedSelector 0x8 5) := ⟨rfl, rfl, rfl, rfl, rfl⟩

/-! ### The step -/

/-- From the reset state, whatever the installed configuration: the placed word is the one that runs. -/
theorem test_step_from_reset :
    step (State.reset.withFetchWord 168 (ctl 0x00)) = exec .nop State.reset ∧
    step (State.reset.withFetchWord 168 (ctl 0x53)) = exec (.gadj .p1 .down) State.reset ∧
    step (State.reset.withFetchWord 168 (ctl 0x90)) = exec .mix State.reset ∧
    step (State.reset.withFetchWord 64 0x800200287D054049) =
      exec (.pkt ⟨0x80, 0x02, 0x00, 0x28, 0x7D, 0x05, 0x40, 0x49⟩) State.reset := ⟨rfl, rfl, rfl, rfl⟩

/-- With nothing waiting a step changes nothing (R23). -/
theorem test_step_idle : step State.reset = .next State.reset := rfl

/-- V-REQ-1: SETGAIN with `sel` 3 is refused by the step. -/
theorem test_step_refuses_selector :
    step (State.reset.withFetchWord 168 (ctl 0x46)) = .refused (.reservedSelector 0x4 3) := rfl

/-- R188: ticks kept whole, the second after a broken one that a MOMENT takes over (log 14). -/
theorem test_keeps_ticks_whole :
    wellBehaved [.reset, .zeroact, .setcmd 32 0 0 0, .momentManual, .push 1, .mix] = true ∧
    wellBehaved [.momentManual, .setcmd 32 0 0 0, .momentManual, .mix] = true := by decide

/-- R188 bars SETMOM and SETCMD between a MOMENT or SETMOM and its MIX, once or more than once. -/
theorem test_breaks_ticks :
    wellBehaved [.momentManual, .setcmd 32 0 0 0, .mix] = false ∧
    wellBehaved [.momentManual, .setmom 1 2 3 4, .mix] = false ∧
    wellBehaved [.momentManual, .setmom 1 2 3 4, .setmom 1 2 3 4, .mix] = false ∧
    wellBehaved [.momentManual, .setcmd 32 0 0 0, .setmom 1 2 3 4, .mix] = false ∧
    wellBehaved [.setmom 1 2 3 4, .clrstate, .mix] = false := by decide

/-! ### Witnesses: for each obligation with hypotheses, states and operands that meet them -/

/-- `base` with the given queue. -/
def queued (q : List Byte) : State := withQueue base q

/-- The frame of V-ENC-1. -/
def goodFrame : Frame := ⟨0x80, 0x01, 0x00, 0x20, 0x00, 0x00, 0x00, 0x50⟩

theorem witness_configurations :
    (∃ c : Config, c.toConfigData = {}) ∧ ¬∃ c : Config, c.toConfigData = { dutyShift := 32 } :=
  ⟨⟨Config.ref, rfl⟩, fun ⟨c, h⟩ => absurd (h ▸ c.wf) (by decide)⟩

theorem witness_encode_gives_canonical_word :
    decode (.req 0x9FFFFFFFFFFFFFFFFFFFFFFFFFFFFFFFFFFFFFFFFF#168) = .ok .mix ∧
    decode (.req 0x4FFFFFFFFFFFFFFFFFFFFFFFFFFFFFFFFFFFFFFFFF#168) ≠ .ok .mix ∧
    decode (.frame 0x8001002000000050#64) = .ok (.pkt goodFrame) := by decide

/-- Each clause at the ends of its range. -/
theorem witness_reserved_codes :
    ((unpack (BitVec.ofNat 168 (ctl 0xC0))).op = 0xC ∧ (unpack (BitVec.ofNat 168 (ctl 0xEF))).op = 0xE) ∧
    ((unpack (BitVec.ofNat 168 (ctl 0x46))).op = 0x4 ∧ (unpack (BitVec.ofNat 168 (ctl 0x46))).sel = 3) ∧
    ((unpack (BitVec.ofNat 168 (ctl 0x5F))).op = 0x5 ∧ (unpack (BitVec.ofNat 168 (ctl 0x5F))).sel = 7) ∧
    ((unpack (BitVec.ofNat 168 (ctl 0x8E))).op = 0x8 ∧ (unpack (BitVec.ofNat 168 (ctl 0x8E))).sel = 7) ∧
    ((unpack (BitVec.ofNat 168 (ctl 0x6A))).op = 0x6 ∧ (unpack (BitVec.ofNat 168 (ctl 0x6A))).sel = 5) ∧
    ((unpack (BitVec.ofNat 168 (ctl 0x6E))).op = 0x6 ∧ (unpack (BitVec.ofNat 168 (ctl 0x6E))).sel = 7) := by decide

theorem witness_step_performs_oldest_request :
    (decode (encode .mix) = .ok .mix ∧ (base.withCode (encode .mix)).inbox = [encode .mix]) ∧
    decode (request 0x4 (sel := 3)) = .error (.reservedSelector 0x4 3) ∧ base.inbox = [] := by decide

theorem witness_well_formed_operations :
    Instr.wf (.push 255) = true ∧ Instr.wf (.push 256) = false := by decide

theorem witness_step_keeps_configuration : ∃ t, step (base.withCode (encode .mix)) = .next t := ⟨_, rfl⟩

theorem witness_push : (0 ≤ (0 : S32).toInt ∧ (0 : S32).toInt ≤ 255) ∧ 0 ≤ (255 : S32).toInt ∧ (255 : S32).toInt ≤ 255 := by
  decide

/-- Each clause of the hunt: V-DEC-2, V-DEC-5, and V-DEC-10, whose first sentinel is a stray one with eight bytes
behind it. -/
theorem witness_decode_hunts :
    base.cfg.header ∉ (queued [0x11, 0x22, 0x33]).block.rxq ∧ base.cfg.header ∉ ([0x11] : List Byte) ∧
    (queued [0x11, 0x80, 0x01]).block.rxq = [0x11] ++ base.cfg.header :: [0x01] ∧
    (queued [0x80, 0x80, 0x01, 0x00, 0x20, 0x00, 0x00, 0x00, 0x50]).block.rxq =
      [] ++ base.cfg.header :: [0x80, 0x01, 0x00, 0x20, 0x00, 0x00, 0x00, 0x50] ∧
    7 ≤ ([0x80, 0x01, 0x00, 0x20, 0x00, 0x00, 0x00, 0x50] : List Byte).length := by decide

/-- Nothing, and six bytes, behind the sentinel: V-DEC-3 and V-DEC-4. -/
theorem witness_decode_short :
    base.cfg.header ∉ ([] : List Byte) ∧ ([] : List Byte).length < 7 ∧
    (queued [0x80]).block.rxq = [] ++ base.cfg.header :: [] ∧ ([1, 0, 0x20, 0, 0, 0] : List Byte).length < 7 ∧
    (queued [0x80, 1, 0, 0x20, 0, 0, 0]).block.rxq = [] ++ base.cfg.header :: [1, 0, 0x20, 0, 0, 0] := by decide

/-- The low and the high bit of the checksum byte: V-DEC-6 and V-DEC-7. -/
theorem witness_decode_wrong_checksum :
    base.cfg.header ∉ ([] : List Byte) ∧
    (queued [0x80, 1, 0, 0x20, 0, 0, 0, 0x51]).block.rxq = [] ++ base.cfg.header :: 1 :: 0 :: 0x20 :: 0 :: 0 :: 0 :: 0x51 :: [] ∧
    (0x51 : Byte) ≠ xorShifted base.cfg.header 1 0 0x20 0 0 0 ∧
    (0xD0 : Byte) ≠ xorShifted base.cfg.header 1 0 0x20 0 0 0 := by decide

/-- V-DEC-5. -/
theorem witness_decode_accepts :
    base.cfg.header ∉ ([0x11] : List Byte) ∧
    (queued [0x11, 0x80, 1, 0, 0x20, 0, 0, 0, 0x50, 0x99, 0x80]).block.rxq =
      [0x11] ++ base.cfg.header :: 1 :: 0 :: 0x20 :: 0 :: 0 :: 0 :: xorShifted base.cfg.header 1 0 0x20 0 0 0 ::
        [0x99, 0x80] := by decide

theorem witness_packet :
    (0x50 : Byte) = xorShifted base.cfg.header 1 0 0x20 0 0 0 ∧
    (0x51 : Byte) ≠ xorShifted base.cfg.header 1 0 0x20 0 0 0 := by decide

/-- The lowest and the highest bit of the checksum of V-CHK-2. -/
theorem witness_checksum_tree :
    (chk7 0x80 1 0 0x20 0 0 0).getLsbD 0 = false ∧ (chk7 0x80 1 0 0x20 0 0 0).getLsbD 6 = true := by decide

/-- A payload byte changed in bit 0 and in bit 1 (V-DEC-9, V-DEC-8), a checksum byte and a header byte changed. -/
theorem witness_single_byte_corruption :
    validPacket base.cfg goodFrame = true ∧ (0x21 : Byte) >>> 1 = payloadByte goodFrame 2 >>> 1 ∧
    (0x22 : Byte) >>> 1 ≠ payloadByte goodFrame 2 >>> 1 ∧ (0x51 : Byte) ≠ goodFrame.chk ∧
    (0x81 : Byte) ≠ goodFrame.header := by decide

theorem witness_single_byte_corruption_runs :
    (∃ t, exec .decode (queued (frameBytes (withPayloadByte goodFrame 0x21 2))) = .next t) ∧
    (∃ t, exec .decode (queued (frameBytes { goodFrame with chk := 0x51 })) = .next t) ∧
    ∃ t, exec .decode (queued (frameBytes { goodFrame with header := 0x81 })) = .next t :=
  ⟨⟨_, rfl⟩, ⟨_, rfl⟩, _, rfl⟩

/-- The ends of the three ranges of R85. -/
theorem witness_sign_restorer_ranges :
    (0x3F : Byte).toNat < 0x40 ∧ 0x40 ≤ (0x40 : Byte).toNat ∧ (0x7F : Byte).toNat < 0x80 ∧ 0x80 ≤ (0x80 : Byte).toNat := by
  decide

theorem witness_round_trip :
    base.cfg.header ∉ base.block.rxq ∧ base.cfg.header ∉ (queued [0x11, 0x7F]).block.rxq := by decide

/-- One byte, and seven bytes, before the poll; and a frame whose payload holds the sentinel. -/
theorem witness_frame_split :
    base.block.rxq = [] ∧ goodFrame.header = base.cfg.header ∧ (1 ≤ 1 ∧ 1 ≤ 7) ∧ (1 ≤ 7 ∧ 7 ≤ 7) ∧
    { goodFrame with mode := 0x80 }.header = base.cfg.header := by decide

/-- An acceptance and a drop. -/
theorem witness_acceptance_count :
    (∃ t, exec .decode (queued (frameBytes goodFrame)) = .next t ∧ t.resp.valid = true) ∧
    (∃ t, exec .decode base = .next t ∧ t.resp.valid = false) ∧ Instr.decode ≠ .reset :=
  ⟨⟨_, rfl, rfl⟩, ⟨_, rfl, rfl⟩, nofun⟩

/-- The gains at both ends, and the sensor range at both ends. -/
theorem witness_moment_yaw :
    (tuned 127 127 127).block.gains.Ok ∧ (tuned 0 0 0).block.gains.Ok ∧
    (-32768 ≤ (port (-32768)).toInt ∧ (port (-32768)).toInt ≤ 32767) ∧
    (-32768 ≤ (port 32767).toInt ∧ (port 32767).toInt ≤ 32767) := by decide

/-- The operands of V-MOM-4. -/
theorem witness_moment_full :
    (tuned 127 127 127).block.gains.Ok ∧
    sensorsOk (port (-32768)) (port 32767) (port (-32768)) (port 32767) (port (-32768)) = true := by decide

/-- The gate at 0, at the most negative lift, and just open. -/
theorem witness_mix_gate :
    (flying (axes 0 0 0 0) (moments 1 2 3 4)).block.cur.lift.toInt ≤ 0 ∧
    (flying (axes (-128) 0 0 0) (moments 1 2 3 4)).block.cur.lift.toInt ≤ 0 ∧
    0 < (flying (axes 1 0 0 0) (moments 1 2 3 4)).block.cur.lift.toInt := by decide

/-- The gate just open, and the MIX that then runs. -/
theorem witness_mix_gate_open :
    0 < (flying (axes 1 0 0 0) (moments 1 2 3 4)).block.cur.lift.toInt ∧
    ∃ t, exec .mix (flying (axes 1 0 0 0) (moments 1 2 3 4)) = .next t := ⟨by decide, _, rfl⟩

/-- Two states of one configuration with the gate open and the lane sums in order, in every lane. -/
theorem witness_mix_monotone :
    (flying (axes 1 0 0 0) (moments 5 0 0 0)).cfg = (flying (axes 2 0 0 0) (moments 9 0 0 0)).cfg ∧
    0 < (flying (axes 1 0 0 0) (moments 5 0 0 0)).block.cur.lift.toInt ∧
    0 < (flying (axes 2 0 0 0) (moments 9 0 0 0)).block.cur.lift.toInt ∧
    sumFor Config.ref.mixCoef.r0 (moments 5 0 0 0) ≤ sumFor Config.ref.mixCoef.r0 (moments 9 0 0 0) ∧
    sumFor Config.ref.mixCoef.r1 (moments 5 0 0 0) ≤ sumFor Config.ref.mixCoef.r1 (moments 9 0 0 0) ∧
    sumFor Config.ref.mixCoef.r2 (moments 5 0 0 0) ≤ sumFor Config.ref.mixCoef.r2 (moments 9 0 0 0) ∧
    sumFor Config.ref.mixCoef.r3 (moments 5 0 0 0) ≤ sumFor Config.ref.mixCoef.r3 (moments 9 0 0 0) ∧
    (∃ t, exec .mix (flying (axes 1 0 0 0) (moments 5 0 0 0)) = .next t) ∧
    ∃ t, exec .mix (flying (axes 2 0 0 0) (moments 9 0 0 0)) = .next t :=
  ⟨rfl, by decide, by decide, by decide, by decide, by decide, by decide, ⟨_, rfl⟩, _, rfl⟩

/-- REF meets the bias bound of R129, with equality; the configuration of the rounding vector does not. -/
theorem witness_low_bias :
    ((flying (axes 1 0 0 0) (moments (-3) 0 0 0)).cfg.effortBias ≤
        (flying (axes 1 0 0 0) (moments (-3) 0 0 0)).cfg.minEffort ∧
      0 < (flying (axes 1 0 0 0) (moments (-3) 0 0 0)).block.cur.lift.toInt ∧
      ∃ t, exec .mix (flying (axes 1 0 0 0) (moments (-3) 0 0 0)) = .next t) ∧
    ¬biased.effortBias ≤ biased.minEffort := ⟨⟨by decide, by decide, _, rfl⟩, by decide⟩

/-- Two states that differ in the gains only, and two with the gate closed that differ in the moments. -/
theorem witness_duties_depend :
    (tuned 1 2 3).cfg = (tuned 4 5 6).cfg ∧ (tuned 1 2 3).block.cur.lift = (tuned 4 5 6).block.cur.lift ∧
    (tuned 1 2 3).block.mom = (tuned 4 5 6).block.mom ∧ (tuned 1 2 3).block.cur.lift.toInt ≤ 0 ∧
    (flying (axes (-1) 0 0 0) (moments 9 9 9 9)).block.cur.lift.toInt ≤ 0 ∧
    (∃ t, exec .mix (tuned 1 2 3) = .next t) ∧ (∃ t, exec .mix (tuned 4 5 6) = .next t) ∧
    ∃ t, exec .mix (flying (axes (-1) 0 0 0) (moments 9 9 9 9)) = .next t :=
  ⟨rfl, rfl, rfl, by decide, by decide, ⟨_, rfl⟩, ⟨_, rfl⟩, _, rfl⟩

/-- The operands of a TICK at the ends of the sensor range. -/
theorem witness_tick :
    (-32768 ≤ (port (-32768)).toInt ∧ (port (-32768)).toInt ≤ 32767) ∧
    -32768 ≤ (port 32767).toInt ∧ (port 32767).toInt ≤ 32767 := by decide

/-- One that pushes and one that does not. -/
theorem witness_only_mix_and_setact :
    (pushes .mix = true ∧ Instr.mix ≠ .reset ∧ ∃ t, exec .mix base = .next t) ∧
    pushes .nop = false ∧ Instr.nop ≠ .reset ∧ ∃ t, exec .nop base = .next t :=
  ⟨⟨rfl, nofun, _, rfl⟩, rfl, nofun, _, rfl⟩

/-- The clamp below, above, at the lower bound and at the upper, and with equal bounds. -/
theorem witness_clamp :
    ((-128 : Int) ≤ 127 ∧ (-129 : Int) < -128 ∧ (128 : Int) > 127) ∧
    ((-128 : Int) ≤ -128 ∧ (-128 : Int) ≤ 127 ∧ (127 : Int) ≤ 127) ∧ (5 : Int) ≤ 5 := by decide

theorem witness_changed :
    (∃ t, exec (.setcmd 32 0 0 0) base = .next t ∧ t.resp.changed = true) ∧
    ∃ t, exec .loadcmd base = .next t ∧ t.resp.changed = false := ⟨⟨_, rfl, rfl⟩, _, rfl, rfl⟩

/-- Another gain than the named one, and the two clauses on the word of GADJ. -/
theorem witness_gain_selectors :
    Gain.p1 ≠ Gain.p ∧ (unpack (BitVec.ofNat 168 (ctl 0x53))).op = 0x5 ∧
    decode (.req (BitVec.ofNat 168 (ctl 0x53))) = .ok (.gadj .p1 .down) ∧
    3 ≤ (unpack (BitVec.ofNat 168 (ctl 0x56))).sel.toNat := by decide

/-- V-OFF-2: both ends, and another offset than the named one. -/
theorem witness_setoff :
    (-32768 ≤ (port 32767).toInt ∧ (port 32767).toInt ≤ 32767) ∧
    (-32768 ≤ (port (-32768)).toInt ∧ (port (-32768)).toInt ≤ 32767) ∧ Offset.qOff ≠ Offset.pOff := by decide

theorem witness_step_keeps_invariant :
    (base.withCode (encode .mix)).Inv ∧ ∃ t, step (base.withCode (encode .mix)) = .next t := ⟨by decide, _, rfl⟩

theorem witness_operations_write : ∃ t, exec (.setcmd 1 2 3 4) base = .next t := ⟨_, rfl⟩

/-- Two states that agree on what MIX reads and differ in the gains. -/
theorem witness_operations_read :
    (tuned 1 2 3).cfg = (tuned 4 5 6).cfg ∧
    (∀ g ∈ Instr.mix.reads, g.Agree (tuned 1 2 3).block (tuned 4 5 6).block) ∧
    (∃ t, exec .mix (tuned 1 2 3) = .next t) ∧ (∃ t, exec .mix (tuned 4 5 6) = .next t) ∧
    (tuned 1 2 3).block.gains ≠ (tuned 4 5 6).block.gains := by
  refine ⟨rfl, ?_, ⟨_, rfl⟩, ⟨_, rfl⟩, by decide⟩
  intro g hg
  rcases List.mem_cons.1 hg with rfl | hg
  · rfl
  · rw [List.mem_singleton.1 hg]; rfl

/-- Both sides of R188: a program that is not whole, and the place where it breaks. -/
theorem witness_broken_tick :
    keepsTicksWhole .closed [.nop, .momentManual, .setmom 1 2 3 4, .setmom 1 2 3 4, .mix] = false ∧
    opensTick .momentManual = true ∧ barredInTick (.setmom 1 2 3 4) = true ∧ endsTick (.setmom 1 2 3 4) = false := by
  decide

end Sys2Proof.Tests
end

section
/-! The checksum function of R80 (40_codec.md): its arithmetic shift as floor division of the signed byte, its mask as
the width of its result, and its value as bits 7:1 of the exclusive or. -/

namespace Sys2Proof.Machine

theorem sshiftRight_one_eq_ofInt_half {w : Nat} (x : BitVec w) : x.sshiftRight 1 = BitVec.ofInt w (x.toInt / 2) := by
  rw [BitVec.sshiftRight, Int.shiftRight_eq_div_pow, Nat.pow_one, Nat.cast_ofNat]

/-- A byte masked to 7 bits is already within `u7`: keeping its low 7 bits loses nothing. -/
theorem setWidth_setWidth_and_7F (b : Byte) : ((b &&& 0x7F#8).setWidth 7).setWidth 8 = b &&& 0x7F#8 := by
  have hb : (b &&& 0x7F#8).toNat < 2 ^ 7 := by
    rw [BitVec.toNat_and]
    exact Nat.and_lt_two_pow _ (by decide)
  apply BitVec.eq_of_toNat_eq
  rw [BitVec.toNat_setWidth_of_le (by decide), BitVec.toNat_setWidth, Nat.mod_eq_of_lt hb]

theorem chk7_setWidth_eq_half_and_7F (h m g l p r y : Byte) :
    (chk7 h m g l p r y).setWidth 8 =
      BitVec.ofInt 8 ((h ^^^ m ^^^ g ^^^ l ^^^ p ^^^ r ^^^ y).toInt / 2) &&& 0x7F#8 := by
  rw [chk7, setWidth_setWidth_and_7F, sshiftRight_one_eq_ofInt_half]

theorem chk7_toNat (h m g l p r y : Byte) :
    (chk7 h m g l p r y).toNat = (h ^^^ m ^^^ g ^^^ l ^^^ p ^^^ r ^^^ y).toNat / 2 := by
  rw [← BitVec.toNat_setWidth_of_le (w' := 8) (by decide), chk7_eq_shift, BitVec.toNat_ushiftRight,
    Nat.shiftRight_eq_div_pow, Nat.pow_one]

/-- Settles O20: the shift and the mask from the definition, bits 7:1 from the logical shift that `chk7` equals, the
worked example by evaluation. -/
theorem checksumIsMaskedArithmeticShift : Obligations.ChecksumIsMaskedArithmeticShift :=
  ⟨fun h m g l p r y => ⟨chk7_setWidth_eq_half_and_7F h m g l p r y, chk7_toNat h m g l p r y⟩, by decide⟩

end Sys2Proof.Machine
end

section
/-! MIX (41_mixer.md R120, R126): the state it ends in, and its one push. -/

namespace Sys2Proof.Machine

theorem exec_mix (s : State) : exec .mix s = .next (s.put (s.block.mixed s.cfg) Response.none) := exec_of_wf s rfl

/-- Settles O39: what MIX leaves in the output stage and appends to its trace is the value of `mixDuties` that it writes
to `AE`. The lift gate and the previous values enter that value only, so no case on them is needed. -/
theorem mixAlwaysPushesOnce : Obligations.MixAlwaysPushesOnce := by
  intro s
  refine ⟨_, exec_mix s, ?_, ?_⟩
  · rw [State.put_block, Block.mixed_actOut, Block.mixed_ae]
  · rw [State.put_block, Block.mixed_actHist, Block.mixed_ae]

end Sys2Proof.Machine
end

section
/-! The gains (42_saturation_and_command.md R148 to R150, 30_encoding.md R67): what a clamped write of one gain leaves,
and what the decoder makes of the two codes of GADJ. -/

namespace Sys2Proof

theorem gainOfSel_eq_some_iff (sel : BitVec 3) (g : Gain) : gainOfSel sel = some g ↔ sel = selOfGain g := by
  revert sel
  cases g <;> decide

theorem gainOfSel_eq_none_iff (sel : BitVec 3) : gainOfSel sel = none ↔ 3 ≤ sel.toNat := by
  revert sel
  decide

theorem bitOfDir_dirOfBit (b : BitVec 1) : bitOfDir (dirOfBit b) = b := by
  revert b
  decide

theorem decodePorts_gadj {p : Ports} {g : Gain} (hop : p.op = 0x5) (hg : gainOfSel p.sel = some g) :
    decodePorts p = .ok (.gadj g (dirOfBit p.dir)) := by
  simp [decodePorts, hop, hg]

theorem decodePorts_gadj_reserved {p : Ports} (hop : p.op = 0x5) (hg : gainOfSel p.sel = none) :
    decodePorts p = .error (.reservedSelector 0x5 p.sel) := by
  simp [decodePorts, hop, hg]

/-- A request of GADJ names its operation by the selector and the direction alone (R67). -/
theorem decodePorts_gadj_eq_ok_iff {p : Ports} (hop : p.op = 0x5) (i : Instr) :
    decodePorts p = .ok i ↔ ∃ g dir, i = .gadj g dir ∧ p.sel = selOfGain g ∧ p.dir = bitOfDir dir := by
  constructor
  · intro h
    cases hg : gainOfSel p.sel with
    | none =>
      rw [decodePorts_gadj_reserved hop hg] at h
      cases h
    | some g =>
      rw [decodePorts_gadj hop hg] at h
      exact ⟨g, _, (Except.ok.inj h).symm, (gainOfSel_eq_some_iff _ g).1 hg, (bitOfDir_dirOfBit _).symm⟩
  · rintro ⟨g, dir, rfl, hsel, hdir⟩
    rw [decodePorts_gadj hop ((gainOfSel_eq_some_iff _ g).2 hsel), hdir, dirOfBit_bitOfDir]

end Sys2Proof

namespace Sys2Proof.Machine

theorem toNat_writeGain_get (k : Block) (g : Gain) (v : Int) :
    (((k.writeGain g v).gains.get g).toNat : Int) = max 0 (min v 127) := by
  have hlo := sat_lower v (lo := 0) (hi := 127) (by decide)
  have hhi := sat_upper v (lo := 0) (hi := 127) (by decide)
  rw [Block.writeGain_gains, Gains.get_set, toNat_ofInt_8 hlo (by omega), sat_eq_max_min v (by decide), min_comm]

theorem writeGain_get_of_ne (k : Block) (v : Int) {g g' : Gain} (h : g' ≠ g) :
    (k.writeGain g v).gains.get g' = k.gains.get g' := by
  rw [Block.writeGain_gains, Gains.get_set_of_ne _ _ h]

theorem onlyChanges_writeGain (s : State) (g : Gain) (v : Int) (r : Response) :
    OnlyChanges [.gains] s (s.put (s.block.writeGain g v) r) := by
  refine ⟨rfl, rfl, fun c hc => ?_⟩
  cases c with
  | gains => exact absurd (List.mem_singleton.2 rfl) hc
  | output => exact ⟨rfl, rfl⟩
  | _ => rfl

/-- An operation that ends in a gain write stores its value clamped to 0..127 and leaves all else (R148, R150). -/
theorem exec_writeGain {i : Instr} {s : State} {g : Gain} {v : Int}
    (h : exec i s = .next (s.put (s.block.writeGain g v) Response.none)) :
    ∃ t, exec i s = .next t ∧ OnlyChanges [.gains] s t ∧ t.resp = quiet ∧
      ((t.block.gains.get g).toNat : Int) = max 0 (min v 127) ∧
      ∀ g', g' ≠ g → t.block.gains.get g' = s.block.gains.get g' :=
  ⟨_, h, onlyChanges_writeGain s g v _, rfl, toNat_writeGain_get s.block g v,
    fun _ hne => writeGain_get_of_ne s.block v hne⟩

/-- Settles O49: both directions end in a clamped gain write, of the gain plus and minus one; the word of GADJ is read
by its selector, with an operation exactly on the selectors below 3. -/
theorem gadjStepsNamedGain : Obligations.GadjStepsNamedGain := by
  refine ⟨fun g s => ⟨exec_writeGain (exec_of_wf (i := .gadj g .up) s rfl),
    exec_writeGain (exec_of_wf (i := .gadj g .down) s rfl)⟩, fun q hop => ⟨?_, ?_⟩⟩
  · exact decodePorts_gadj_eq_ok_iff hop
  · exact fun hsel => decodePorts_gadj_reserved hop ((gainOfSel_eq_none_iff _).2 hsel)

end Sys2Proof.Machine
end

section
/-! The clamp (42_saturation_and_command.md R140), one case per lemma. -/

namespace Sys2Proof.Machine

theorem sat_of_lt {v lo : Int} (hi : Int) (h : v < lo) : sat v lo hi = lo := if_pos h

theorem sat_of_gt {v lo hi : Int} (hle : lo ≤ hi) (h : v > hi) : sat v lo hi = hi := by
  rw [sat_eq_max_min v hle, min_eq_left h.le, max_eq_right hle]

/-- Settles O43: the three cases of R140. -/
theorem clampSelectsBoundOrValue : Obligations.ClampSelectsBoundOrValue :=
  fun _ _ hi hle => ⟨sat_of_lt hi, sat_of_gt hle, sat_of_mem⟩

end Sys2Proof.Machine
end

section
/-! SETCMD and LOADCMD (42_saturation_and_command.md R144, R145, R147): the one write both end in, and its response. -/

namespace Sys2Proof.Machine

theorem axesChanged_iff (old new : Axes) :
    axesChanged old new = true ↔
      new.lift ≠ old.lift ∨ new.pitch ≠ old.pitch ∨ new.roll ≠ old.roll ∨ new.yaw ≠ old.yaw := by
  simp only [axesChanged, Bool.or_eq_true, bne_iff_ne, or_assoc]

theorem axesChanged_iff_ne (old new : Axes) : axesChanged old new = true ↔ new ≠ old := by
  obtain ⟨l, p, r, y⟩ := old
  obtain ⟨l', p', r', y'⟩ := new
  simp only [axesChanged_iff, ne_eq, Axes.mk.injEq, not_and_or]

/-- SETCMD and LOADCMD write some axes over the commanded ones and respond whether they differ. -/
theorem exec_command_next {s t : State} {a b c d : S32}
    (h : exec (.setcmd a b c d) s = .next t ∨ exec .loadcmd s = .next t) :
    ∃ new, t = s.put (s.block.writeAxes new) (respChanged (axesChanged s.block.cur new)) := by
  obtain h | h := h
  · exact ⟨_, (exec_next h).2⟩
  · exact ⟨_, (exec_next h).2⟩

/-- Settles O46: the response compares the written axes with the ones they replace, and those become the previous. -/
theorem changedReportsAxisChange : Obligations.ChangedReportsAxisChange := by
  intro s t a b c d h
  obtain ⟨new, rfl⟩ := exec_command_next h
  exact ⟨axesChanged_iff s.block.cur new, axesChanged_iff_ne s.block.cur new⟩

end Sys2Proof.Machine
end

section
/-! ZEROACT (42_saturation_and_command.md R155): zero is in every duty range. -/

namespace Sys2Proof.Machine

theorem satDuty_zero (c : Config) : satDuty c 0 = 0 :=
  congrArg (BitVec.ofInt 16) (sat_of_mem (le_refl 0) c.maxDuty_nonneg)

theorem exec_zeroact (s : State) : exec .zeroact s = .next (s.put (s.block.writeAct Duties.zero) Response.none) := by
  rw [exec_of_wf s rfl, effect, satDuty_zero]
  rfl

theorem exec_zeroact_eq_setact (s : State) : exec .zeroact s = exec (.setact 0 0 0 0) s := rfl

/-- Settles O52: ZEROACT runs SETACT's own code on zeros, and the duty clamp keeps a zero. -/
theorem zeroactPushesZeros : Obligations.ZeroactPushesZeros :=
  fun s => ⟨exec_zeroact_eq_setact s, exec_zeroact s⟩

end Sys2Proof.Machine
end

section
/-! The columns `w` of the access table (10_state.md R27): what each named update of the block leaves, column by column,
and from it what every operation leaves. -/

namespace Sys2Proof.Machine

/-- The columns outside `gs` are the same in two blocks. -/
def AgreeOutside (gs : List Group) (k k' : Block) : Prop := ∀ g : Group, g ∉ gs → g.Agree k k'

theorem agreeOutside_refl (gs : List Group) (k : Block) : AgreeOutside gs k k := by
  intro g _
  cases g with
  | output => exact ⟨rfl, rfl⟩
  | _ => rfl

theorem agreeOutside_rxAppend (k : Block) (b : Byte) : AgreeOutside [.rxq] k (k.rxAppend b) := by
  intro g hg
  cases g <;> simp_all [Group.Agree]

theorem agreeOutside_rxAppendFrame (k : Block) (f : Frame) : AgreeOutside [.rxq] k (k.rxAppendFrame f) := by
  intro g hg
  cases g <;> simp_all [Group.Agree]

theorem agreeOutside_settle (k : Block) (v : Verdict) : AgreeOutside [.rxq, .cmd, .accHist] k (k.settle v) := by
  intro g hg
  cases g <;> simp_all [Group.Agree]

theorem agreeOutside_settle_frameAtHead (k : Block) (f : Frame) (v : Verdict) :
    AgreeOutside [.rxq, .cmd, .accHist] k ((k.frameAtHead f).settle v) := by
  intro g hg
  cases g <;> simp_all [Group.Agree]

theorem agreeOutside_writeAxes (k : Block) (new : Axes) : AgreeOutside [.axes, .prevAxes] k (k.writeAxes new) := by
  intro g hg
  cases g <;> simp_all [Group.Agree]

theorem agreeOutside_writeGain (k : Block) (g : Gain) (v : Int) : AgreeOutside [.gains] k (k.writeGain g v) := by
  intro g hg
  cases g <;> simp_all [Group.Agree]

theorem agreeOutside_writeOffset (k : Block) (o : Offset) (v : S16) :
    AgreeOutside [.offsets] k (k.writeOffset o v) := by
  intro g hg
  cases g <;> simp_all [Group.Agree]

theorem agreeOutside_writeMoments (k : Block) (m : Moments) : AgreeOutside [.moments] k (k.writeMoments m) := by
  intro g hg
  cases g <;> simp_all [Group.Agree]

theorem agreeOutside_writeAct (k : Block) (q : Duties) : AgreeOutside [.ae, .output] k (k.writeAct q) := by
  intro g hg
  cases g <;> simp_all [Group.Agree]

theorem agreeOutside_writeMoments_mixed (k : Block) (m : Moments) (c : Config) :
    AgreeOutside [.moments, .ae, .output] k ((k.writeMoments m).mixed c) := by
  intro g hg
  cases g <;> simp_all [Group.Agree]

theorem agreeOutside_clear (k : Block) : AgreeOutside [.axes, .prevAxes, .moments] k k.clear := by
  intro g hg
  cases g <;> simp_all [Group.Agree]

/-- Every column stands in the row of RESET. -/
theorem mem_writes_reset (g : Group) : g ∈ Instr.writes .reset := by
  cases g <;> decide

/-- The block an operation ends with is the old one outside the columns its row marks. -/
theorem agreeOutside_effect (i : Instr) (s : State) : AgreeOutside i.writes s.block (effect s i).1 := by
  cases i with
  | push a => exact agreeOutside_rxAppend _ _
  | pushframe f => exact agreeOutside_rxAppendFrame _ _
  | sendcmd mode gain lift pitch roll yaw => exact agreeOutside_rxAppendFrame _ _
  | decode => exact agreeOutside_settle _ _
  | pkt f => exact agreeOutside_settle_frameAtHead _ _ _
  | setcmd a b c d => exact agreeOutside_writeAxes _ _
  | loadcmd => exact agreeOutside_writeAxes _ _
  | setgain g a => exact agreeOutside_writeGain _ _ _
  | gadj g dir => cases dir <;> exact agreeOutside_writeGain _ _ _
  | setoff o a => exact agreeOutside_writeOffset _ _ _
  | setmom a b c d => exact agreeOutside_writeMoments _ _
  | momentManual => exact agreeOutside_writeMoments _ _
  | momentYaw sr => exact agreeOutside_writeMoments _ _
  | momentFull phi theta sp sq sr => exact agreeOutside_writeMoments _ _
  | mix => exact agreeOutside_writeAct _ _
  | setact a b c d => exact agreeOutside_writeAct _ _
  | zeroact => exact agreeOutside_writeAct _ _
  | tickManual => exact agreeOutside_writeMoments_mixed _ _ _
  | tickYaw sr => exact agreeOutside_writeMoments_mixed _ _ _
  | tickFull phi theta sp sq sr => exact agreeOutside_writeMoments_mixed _ _ _
  | clrstate => exact agreeOutside_clear _
  | reset => exact fun g hg => absurd (mem_writes_reset g) hg
  | nop | reservedC | reservedD | reservedE | momentReservedSel3 | momentReservedSel4to7 =>
    exact agreeOutside_refl _ _

theorem exec_onlyChanges {i : Instr} {s t : State} (h : exec i s = .next t) : OnlyChanges i.writes s t := by
  obtain ⟨-, rfl⟩ := exec_next h
  exact ⟨rfl, rfl, agreeOutside_effect i s⟩

/-- Settles O58: every operation ends in one named update of the block, and each update leaves the columns its
operation does not mark. -/
theorem operationsWriteOnlyMarkedState : Obligations.OperationsWriteOnlyMarkedState :=
  fun _ _ _ => exec_onlyChanges

end Sys2Proof.Machine
end

section
/-! The columns `r` of the access table (10_state.md R27): each named update, given equal values to write, keeps every
agreement between two blocks, and the values an operation writes are fixed by the columns its row marks as read. -/

namespace Sys2Proof.Machine

/-- Every column on which `k` and `k'` agree is one on which `l` and `l'` agree. -/
def AgreementKept (k k' l l' : Block) : Prop := ∀ g : Group, g.Agree k k' → g.Agree l l'

theorem AgreementKept.trans {k k' l l' m m' : Block} (h₁ : AgreementKept k k' l l') (h₂ : AgreementKept l l' m m') :
    AgreementKept k k' m m' := fun g h => h₂ g (h₁ g h)

theorem agreementKept_rxAppend (k k' : Block) (b : Byte) : AgreementKept k k' (k.rxAppend b) (k'.rxAppend b) := by
  intro g h
  cases g <;> simp_all [Group.Agree]

theorem agreementKept_rxAppendFrame (k k' : Block) (f : Frame) :
    AgreementKept k k' (k.rxAppendFrame f) (k'.rxAppendFrame f) := by
  intro g h
  cases g <;> simp_all [Group.Agree]

theorem agreementKept_frameAtHead (k k' : Block) (f : Frame) :
    AgreementKept k k' (k.frameAtHead f) (k'.frameAtHead f) := by
  intro g h
  cases g <;> simp_all [Group.Agree]

/-- The two blocks settle the same verdict. -/
theorem agreementKept_settle (k k' : Block) (v : Verdict) : AgreementKept k k' (k.settle v) (k'.settle v) := by
  intro g h
  cases v <;> cases g <;> simp_all [Group.Agree, Block.settle]

/-- The old commanded axes, which become the previous, must agree too. -/
theorem agreementKept_writeAxes {k k' : Block} (new : Axes) (hcur : k.cur = k'.cur) :
    AgreementKept k k' (k.writeAxes new) (k'.writeAxes new) := by
  intro g h
  cases g <;> simp_all [Group.Agree]

theorem agreementKept_writeGain (k k' : Block) (g : Gain) (v : Int) :
    AgreementKept k k' (k.writeGain g v) (k'.writeGain g v) := by
  intro g h
  cases g <;> simp_all [Group.Agree]

theorem agreementKept_writeOffset (k k' : Block) (o : Offset) (v : S16) :
    AgreementKept k k' (k.writeOffset o v) (k'.writeOffset o v) := by
  intro g h
  cases g <;> simp_all [Group.Agree]

theorem agreementKept_writeMoments (k k' : Block) (m : Moments) :
    AgreementKept k k' (k.writeMoments m) (k'.writeMoments m) := by
  intro g h
  cases g <;> simp_all [Group.Agree]

theorem agreementKept_writeAct (k k' : Block) (q : Duties) : AgreementKept k k' (k.writeAct q) (k'.writeAct q) := by
  intro g h
  cases g <;> simp_all [Group.Agree]

/-- MIX reads the lift and the moments. -/
theorem agreementKept_mixed {k k' : Block} (c : Config) (hcur : k.cur = k'.cur) (hmom : k.mom = k'.mom) :
    AgreementKept k k' (k.mixed c) (k'.mixed c) := by
  rw [Block.mixed, Block.mixed, hcur, hmom]
  exact agreementKept_writeAct _ _ _

theorem agreementKept_clear (k k' : Block) : AgreementKept k k' k.clear k'.clear := by
  intro g h
  cases g <;> simp_all [Group.Agree]

theorem agreementKept_to_same (k k' l : Block) : AgreementKept k k' l l :=
  fun g _ => agreeOutside_refl [] l g List.not_mem_nil

/-- A MOMENT of equal values and the MIX that follows. -/
theorem agreementKept_writeMoments_mixed {k k' : Block} (m : Moments) (c : Config) (hcur : k.cur = k'.cur) :
    AgreementKept k k' ((k.writeMoments m).mixed c) ((k'.writeMoments m).mixed c) :=
  (agreementKept_writeMoments k k' m).trans (agreementKept_mixed c hcur rfl)

theorem momentsManual_congr {k k' : Block} (c : Config) (hcur : k.cur = k'.cur) :
    momentsManual c k = momentsManual c k' := by
  rw [momentsManual, hcur]
  rfl

theorem momentsYaw_congr {k k' : Block} (c : Config) (sr : S32) (hcur : k.cur = k'.cur) (hgains : k.gains = k'.gains)
    (hoffs : k.offs = k'.offs) : momentsYaw c k sr = momentsYaw c k' sr := by
  rw [momentsYaw, yawFeedback, hcur, hgains, hoffs]
  rfl

theorem momentsFull_congr {k k' : Block} (c : Config) (phi theta sp sq sr : S32) (hcur : k.cur = k'.cur)
    (hgains : k.gains = k'.gains) (hoffs : k.offs = k'.offs) :
    momentsFull c k phi theta sp sq sr = momentsFull c k' phi theta sp sq sr := by
  rw [momentsFull, yawFeedback, hcur, hgains, hoffs]
  rfl

/-- From two states of one configuration that agree on what its row marks as read, an operation responds the same and
keeps every agreement. -/
theorem effect_agreementKept (i : Instr) {s s' : State} (hc : s.cfg = s'.cfg)
    (hr : ∀ g ∈ i.reads, g.Agree s.block s'.block) :
    (effect s i).2 = (effect s' i).2 ∧ AgreementKept s.block s'.block (effect s i).1 (effect s' i).1 := by
  cases i with
  | push a => exact ⟨rfl, agreementKept_rxAppend _ _ _⟩
  | pushframe f => exact ⟨rfl, agreementKept_rxAppendFrame _ _ f⟩
  | sendcmd mode gain lift pitch roll yaw =>
    simp only [effect, hc, true_and]
    exact agreementKept_rxAppendFrame _ _ _
  | decode =>
    have hq : s.block.rxq = s'.block.rxq := by simpa [Instr.reads, Group.Agree] using hr
    simp only [effect, hc, hq, true_and]
    exact agreementKept_settle _ _ _
  | pkt f =>
    have hq : s.block.rxq = s'.block.rxq := by simpa [Instr.reads, Group.Agree] using hr
    simp only [effect, hc, hq, true_and]
    exact (agreementKept_frameAtHead _ _ f).trans (agreementKept_settle _ _ _)
  | setcmd a b c d =>
    have hcur : s.block.cur = s'.block.cur := by simpa [Instr.reads, Group.Agree] using hr
    simp only [effect, hcur, true_and]
    exact agreementKept_writeAxes _ hcur
  | loadcmd =>
    obtain ⟨hcmd, hcur⟩ := by simpa [Instr.reads, Group.Agree] using hr
    simp only [effect, hcmd, hcur, true_and]
    exact agreementKept_writeAxes _ hcur
  | setgain g a => exact ⟨rfl, agreementKept_writeGain _ _ g _⟩
  | gadj g dir =>
    have hgains : s.block.gains = s'.block.gains := by simpa [Instr.reads, Group.Agree] using hr
    cases dir <;> simp only [effect, hgains, true_and] <;> exact agreementKept_writeGain _ _ g _
  | setoff o a => exact ⟨rfl, agreementKept_writeOffset _ _ o _⟩
  | setmom a b c d => exact ⟨rfl, agreementKept_writeMoments _ _ _⟩
  | momentManual =>
    obtain ⟨hcur, -, -⟩ := by simpa [Instr.reads, Group.Agree] using hr
    simp only [effect, hc, momentsManual_congr _ hcur, true_and]
    exact agreementKept_writeMoments _ _ _
  | momentYaw sr =>
    obtain ⟨hcur, hgains, hoffs⟩ := by simpa [Instr.reads, Group.Agree] using hr
    simp only [effect, hc, momentsYaw_congr _ sr hcur hgains hoffs, true_and]
    exact agreementKept_writeMoments _ _ _
  | momentFull phi theta sp sq sr =>
    obtain ⟨hcur, hgains, hoffs⟩ := by simpa [Instr.reads, Group.Agree] using hr
    simp only [effect, hc, momentsFull_congr _ phi theta sp sq sr hcur hgains hoffs, true_and]
    exact agreementKept_writeMoments _ _ _
  | mix =>
    obtain ⟨hcur, hmom⟩ := by simpa [Instr.reads, Group.Agree] using hr
    simp only [effect, hc, true_and]
    exact agreementKept_mixed _ hcur hmom
  | tickManual =>
    obtain ⟨hcur, -, -⟩ := by simpa [Instr.reads, Group.Agree] using hr
    simp only [effect, hc, momentsManual_congr _ hcur, true_and]
    exact agreementKept_writeMoments_mixed _ _ hcur
  | tickYaw sr =>
    obtain ⟨hcur, hgains, hoffs⟩ := by simpa [Instr.reads, Group.Agree] using hr
    simp only [effect, hc, momentsYaw_congr _ sr hcur hgains hoffs, true_and]
    exact agreementKept_writeMoments_mixed _ _ hcur
  | tickFull phi theta sp sq sr =>
    obtain ⟨hcur, hgains, hoffs⟩ := by simpa [Instr.reads, Group.Agree] using hr
    simp only [effect, hc, momentsFull_congr _ phi theta sp sq sr hcur hgains hoffs, true_and]
    exact agreementKept_writeMoments_mixed _ _ hcur
  | setact a b c d =>
    simp only [effect, hc, true_and]
    exact agreementKept_writeAct _ _ _
  | zeroact =>
    simp only [effect, hc, true_and]
    exact agreementKept_writeAct _ _ _
  | clrstate => exact ⟨rfl, agreementKept_clear _ _⟩
  | reset =>
    simp only [effect, hc, true_and]
    exact agreementKept_to_same _ _ _
  | nop | reservedC | reservedD | reservedE | momentReservedSel3 | momentReservedSel4to7 =>
    exact ⟨rfl, fun _ h => h⟩

/-- Settles O59: what the block and the response are after an operation is its effect, and the effect is fixed by the
marked columns up to the agreement that was there before. -/
theorem operationsReadOnlyMarkedState : Obligations.OperationsReadOnlyMarkedState := by
  intro i s s' t t' hc hr h h'
  obtain ⟨-, rfl⟩ := exec_next h
  obtain ⟨-, rfl⟩ := exec_next h'
  exact effect_agreementKept i hc hr

end Sys2Proof.Machine
end

section
/-! The invariant (10_state.md R22): what it asks of the registers holds after reset, stays where the gains and the
output stage are not written, and is met by each of the three kinds of write that reach them. -/

namespace Sys2Proof.Machine

theorem toNat_gainReset_le {p : Int} (h : GainResetOk p) : (BitVec.ofInt 8 p).toNat ≤ 127 := by
  have hv := toNat_ofInt_8 h.1 (by omega)
  omega

theorem duties_zero_ok (c : Config) : Duties.zero.Ok c := by
  have hz : dutyOk c 0 := c.maxDuty_nonneg
  exact ⟨hz, hz, hz, hz⟩

/-- A block at its reset values meets the invariant, whatever waits and whatever was responded. -/
theorem inv_of_reset_block {s : State} (h : s.block = Block.reset s.cfg) : s.Inv := by
  obtain ⟨hp, hp1, hp2⟩ := s.cfg.gainResetsOk
  unfold State.Inv
  rw [h]
  exact ⟨⟨toNat_gainReset_le hp, toNat_gainReset_le hp1, toNat_gainReset_le hp2⟩, duties_zero_ok _,
    duties_zero_ok _, fun q hq => absurd hq List.not_mem_nil, rfl, rfl⟩

/-- Settles O56: every configuration's reset values of the gains are in range, and every duty is zero. -/
theorem bootStateMeetsInvariant : Obligations.BootStateMeetsInvariant :=
  ⟨fun _ => inv_of_reset_block rfl, inv_of_reset_block rfl⟩

/-- The invariant speaks of the gains, of `AE` and of the output stage only. -/
theorem inv_of_onlyChanges {gs : List Group} {s t : State} (h : OnlyChanges gs s t) (hgains : .gains ∉ gs)
    (hae : .ae ∉ gs) (hout : .output ∉ gs) (hs : s.Inv) : t.Inv := by
  obtain ⟨hcfg, -, hagree⟩ := h
  have eg : s.block.gains = t.block.gains := hagree _ hgains
  have ea : s.block.ae = t.block.ae := hagree _ hae
  have eo : s.block.actOut = t.block.actOut ∧ s.block.actHist = t.block.actHist := hagree _ hout
  unfold State.Inv at hs ⊢
  rwa [hcfg, ← eg, ← ea, ← eo.1, ← eo.2]

theorem lastPushed_append (hist : List Duties) (q : Duties) : lastPushed (hist ++ [q]) = q := by
  simp [lastPushed]

/-- A push of duties in range, on a block whose gains and trace are the old ones. -/
theorem inv_put_writeAct {s : State} {k : Block} {q : Duties} (r : Response) (hs : s.Inv)
    (hgains : k.gains = s.block.gains) (hhist : k.actHist = s.block.actHist) (hq : q.Ok s.cfg) :
    (s.put (k.writeAct q) r).Inv := by
  obtain ⟨hg, -, -, hh, -, -⟩ := hs
  refine ⟨?_, hq, hq, ?_, ?_, rfl⟩
  · rwa [State.put_block, Block.writeAct_gains, hgains]
  · intro q' hq'
    rw [State.put_block, Block.writeAct_actHist, hhist, List.mem_append, List.mem_singleton] at hq'
    obtain hq' | rfl := hq'
    · exact hh q' hq'
    · exact hq
  · rw [State.put_block, Block.writeAct_actHist, lastPushed_append, Block.writeAct_actOut]

theorem gains_set_ok {gs : Gains} (h : gs.Ok) {v : Byte} (hv : v.toNat ≤ 127) (g : Gain) : (gs.set v g).Ok := by
  obtain ⟨hp, hp1, hp2⟩ := h
  cases g with
  | p => exact ⟨hv, hp1, hp2⟩
  | p1 => exact ⟨hp, hv, hp2⟩
  | p2 => exact ⟨hp, hp1, hv⟩

theorem toNat_satGain_le (v : Int) : (BitVec.ofInt 8 (sat v 0 127)).toNat ≤ 127 := by
  have hlo := sat_lower v (lo := 0) (hi := 127) (by decide)
  have hhi := sat_upper v (lo := 0) (hi := 127) (by decide)
  have hv := toNat_ofInt_8 hlo (by omega)
  omega

theorem inv_put_writeGain {s : State} (g : Gain) (v : Int) (r : Response) (hs : s.Inv) :
    (s.put (s.block.writeGain g v) r).Inv := by
  obtain ⟨hg, hrest⟩ := hs
  exact ⟨gains_set_ok hg (toNat_satGain_le v) g, hrest⟩

theorem satDuty_ok (c : Config) (v : Int) : dutyOk c (satDuty c v) := by
  have hlo := sat_lower v c.maxDuty_nonneg
  have hhi := sat_upper v c.maxDuty_nonneg
  have hmax := c.dutyOk.2
  have hv := toNat_ofInt_16 hlo (by omega)
  rw [dutyOk, satDuty, hv]
  exact hhi

theorem satDuties_ok (c : Config) (v₀ v₁ v₂ v₃ : Int) :
    (Duties.mk (satDuty c v₀) (satDuty c v₁) (satDuty c v₂) (satDuty c v₃)).Ok c :=
  ⟨satDuty_ok c _, satDuty_ok c _, satDuty_ok c _, satDuty_ok c _⟩

/-- An operation that pushes ends in a write of duties in range, on a block with the old gains and the old trace. -/
theorem effect_of_pushes {i : Instr} (s : State) (h : pushes i = true) :
    ∃ (k : Block) (q : Duties), (effect s i).1 = k.writeAct q ∧ k.gains = s.block.gains ∧
      k.actHist = s.block.actHist ∧ q.Ok s.cfg := by
  cases i with
  | mix => exact ⟨_, _, rfl, rfl, rfl, mixDuties_ok _ _ _⟩
  | tickManual => exact ⟨_, _, rfl, rfl, rfl, mixDuties_ok _ _ _⟩
  | tickYaw sr => exact ⟨_, _, rfl, rfl, rfl, mixDuties_ok _ _ _⟩
  | tickFull phi theta sp sq sr => exact ⟨_, _, rfl, rfl, rfl, mixDuties_ok _ _ _⟩
  | setact a b c d => exact ⟨_, _, rfl, rfl, rfl, satDuties_ok _ _ _ _ _⟩
  | zeroact => exact ⟨_, _, rfl, rfl, rfl, satDuties_ok _ _ _ _ _⟩
  | _ => exact absurd h.symm Bool.false_ne_true.symm

/-- Apart from RESET, `AE` and the output stage stand only in the rows of the operations that push (R27, R48). -/
theorem not_mem_writes_of_not_pushes {i : Instr} (h : pushes i = false) (hr : i ≠ .reset) :
    .ae ∉ i.writes ∧ .output ∉ i.writes := by
  cases i with
  | reset => exact absurd rfl hr
  | mix | setact | zeroact | tickManual | tickYaw | tickFull => exact absurd h.symm Bool.false_ne_true
  | _ => simp [Instr.writes]

/-- Apart from RESET, only SETGAIN and GADJ write a gain (R27). -/
theorem effect_of_gains_mem_writes {i : Instr} (s : State) (h : .gains ∈ i.writes) (hr : i ≠ .reset) :
    ∃ g v, (effect s i).1 = s.block.writeGain g v := by
  cases i with
  | setgain g a => exact ⟨g, _, rfl⟩
  | gadj g dir => cases dir <;> exact ⟨g, _, rfl⟩
  | reset => exact absurd rfl hr
  | _ => exact absurd h (by simp [Instr.writes])

theorem exec_keeps_inv {i : Instr} {s t : State} (h : exec i s = .next t) (hs : s.Inv) : t.Inv := by
  have honly := exec_onlyChanges h
  obtain ⟨-, rfl⟩ := exec_next h
  by_cases hr : i = .reset
  · subst hr
    exact inv_of_reset_block rfl
  cases hp : pushes i with
  | true =>
    obtain ⟨k, q, hk, hgains, hhist, hq⟩ := effect_of_pushes s hp
    rw [hk]
    exact inv_put_writeAct _ hs hgains hhist hq
  | false =>
    obtain ⟨hae, hout⟩ := not_mem_writes_of_not_pushes hp hr
    by_cases hg : .gains ∈ i.writes
    · obtain ⟨g, v, hk⟩ := effect_of_gains_mem_writes s hg hr
      rw [hk]
      exact inv_put_writeGain g v _ hs
    · exact inv_of_onlyChanges honly hg hae hout hs

/-- Settles O57: a step is idle or one operation, and an operation resets the block, pushes duties in range, clamps a
gain, or writes none of what the invariant speaks of. -/
theorem stepKeepsInvariant : Obligations.StepKeepsInvariant := by
  intro s t hs h
  obtain ⟨-, rfl⟩ | ⟨code, rest, i, -, -, hi⟩ := step_next h
  · exact hs
  · exact exec_keeps_inv hi hs

/-- Settles O40: a push is the write of one tuple to `AE`, the output stage and its trace, and the rows of all other
operations but RESET leave these three out. -/
theorem onlyMixAndSetactPush : Obligations.OnlyMixAndSetactPush := by
  intro i s t h hr
  obtain ⟨-, -, hagree⟩ := exec_onlyChanges h
  refine ⟨fun hp => ?_, fun hp => ?_⟩
  · obtain ⟨-, rfl⟩ := exec_next h
    obtain ⟨k, q, hk, -, hhist, -⟩ := effect_of_pushes s hp
    rw [State.put_block, hk, Block.writeAct_actHist, hhist]
    exact ⟨rfl, rfl⟩
  · obtain ⟨hae, hout⟩ := not_mem_writes_of_not_pushes hp hr
    obtain ⟨eout, ehist⟩ := hagree _ hout
    exact ⟨ehist.symm, eout.symm, (hagree _ hae).symm⟩

end Sys2Proof.Machine
end

section
/-! RESET and NOP (70_reset_and_hazards.md R180, 42_saturation_and_command.md R157). -/

namespace Sys2Proof.Machine

/-- Settles O55: RESET writes the reset block, whose gains are the configuration's, in range of a byte by R5. -/
theorem resetPutsEveryElement : Obligations.ResetPutsEveryElement := by
  refine ⟨fun c => rfl, fun s => ?_⟩
  obtain ⟨hp, hp1, hp2⟩ := s.cfg.gainResetsOk
  exact ⟨_, exec_of_wf s rfl, rfl, rfl, rfl, rfl, rfl, rfl, rfl, rfl, toNat_ofInt_8 hp.1 (by omega),
    toNat_ofInt_8 hp1.1 (by omega), toNat_ofInt_8 hp2.1 (by omega), rfl, rfl, rfl, rfl, rfl⟩

/-- Settles O54: NOP puts the block back as it is. -/
theorem nopChangesNothing : Obligations.NopChangesNothing := fun s => exec_of_wf s rfl

end Sys2Proof.Machine
end

section
/-! Encodings (30_encoding.md R61, R65 to R70): the decoder on a packed request, each way of the two tables, and the
codes that have no meaning. -/

namespace Sys2Proof

theorem decode_request (op : BitVec 4) (sel : BitVec 3) (dir : BitVec 1) (a b c d e : S32) :
    decode (request op sel dir a b c d e) = decodePorts ⟨op, sel, dir, a, b, c, d, e⟩ :=
  congrArg decodePorts (unpack_pack _)

theorem decodePorts_setgain {p : Ports} {g : Gain} (hop : p.op = 0x4) (hg : gainOfSel p.sel = some g) :
    decodePorts p = .ok (.setgain g p.a) := by
  simp [decodePorts, hop, hg]

theorem decodePorts_setoff {p : Ports} {o : Offset} (hop : p.op = 0x6) (ho : offsetOfSel p.sel = some o) :
    decodePorts p = .ok (.setoff o p.a) := by
  simp [decodePorts, hop, ho]

theorem decodePorts_moment {p : Ports} (hop : p.op = 0x8) : decodePorts p = .ok (decodeMoment p) := by
  simp [decodePorts, hop]

/-- The selectors 4 to 7 of MOMENT are a set high bit and the two bits the operation carries (R67). -/
theorem decodeMoment_sel4to7 (k : BitVec 2) (a b c d e : S32) :
    decodeMoment ⟨0x8, 1#1 ++ k, 0, a, b, c, d, e⟩ = .momentReservedSel4to7 k := by
  have hk : ∀ k : BitVec 2, k = 0 ∨ k = 1 ∨ k = 2 ∨ k = 3 := by decide
  obtain rfl | rfl | rfl | rfl := hk k <;> rfl

/-- Settles O3: a request word reads back as its ports and those select the operation; a frame word reads back as its
frame; a line is the operation. -/
theorem decodeInvertsEncode : Obligations.DecodeInvertsEncode := by
  intro i
  cases i with
  | setgain g a => exact (decode_request ..).trans (decodePorts_setgain rfl (gainOfSel_selOfGain g))
  | gadj g dir =>
    exact (decode_request ..).trans ((decodePorts_gadj_eq_ok_iff rfl _).2 ⟨g, dir, rfl, rfl, rfl⟩)
  | setoff o a => exact (decode_request ..).trans (decodePorts_setoff rfl (offsetOfSel_selOfOffset o))
  | momentReservedSel4to7 k =>
    exact (decode_request ..).trans ((decodePorts_moment rfl).trans (congrArg _ (decodeMoment_sel4to7 k ..)))
  | pkt f => exact congrArg (fun f' => Except.ok (Instr.pkt f')) (frameOfWord_wordOfFrame f)
  | loadcmd | zeroact | tickManual | tickYaw | tickFull | pushframe | sendcmd => rfl
  | _ => exact decode_request ..

theorem offsetOfSel_eq_some_iff (sel : BitVec 3) (o : Offset) : offsetOfSel sel = some o ↔ sel = selOfOffset o := by
  revert sel
  cases o <;> decide

theorem offsetOfSel_eq_none_iff (sel : BitVec 3) : offsetOfSel sel = none ↔ 5 ≤ sel.toNat := by
  revert sel
  decide

theorem encode_of_decodeMoment {p : Ports} (hop : p.op = 0x8) :
    encode (decodeMoment p) = .req (pack (usedPorts (decodeMoment p) p)) := by
  obtain ⟨op, sel, dir, a, b, c, d, e⟩ := p
  subst hop
  unfold decodeMoment
  split <;> rename_i hsel <;> cases hsel <;> rfl

/-- Encoding what the ports of a request decode to clears the ports its operation does not use. -/
theorem encode_of_decodePorts {p : Ports} {i : Instr} (h : decodePorts p = .ok i) :
    encode i = .req (pack (usedPorts i p)) := by
  obtain ⟨op, sel, dir, a, b, c, d, e⟩ := p
  unfold decodePorts at h
  split at h
  case h_5 hop =>
    cases hop
    split at h
    case h_1 g hg =>
      cases h
      cases (gainOfSel_eq_some_iff sel g).1 hg
      rfl
    case h_2 => cases h
  case h_6 hop =>
    cases hop
    split at h
    case h_1 g hg =>
      cases h
      cases (gainOfSel_eq_some_iff sel g).1 hg
      rw [encode, bitOfDir_dirOfBit]
      rfl
    case h_2 => cases h
  case h_7 hop =>
    cases hop
    split at h
    case h_1 o ho =>
      cases h
      cases (offsetOfSel_eq_some_iff sel o).1 ho
      rfl
    case h_2 => cases h
  case h_9 hop =>
    cases h
    exact encode_of_decodeMoment hop
  case h_16 =>
    have hop : op = 0xF := by
      simp only at *
      revert op
      decide
    cases hop
    cases h
    rfl
  all_goals
    rename_i hop
    cases hop
    cases h
    rfl

theorem wordOfFrame_frameOfWord (w : FrameWord) : wordOfFrame (frameOfWord w) = w := by
  simp (disch := decide) only [wordOfFrame, frameOfWord, BitVec.extractLsb'_append_extractLsb'_eq_extractLsb']
  exact extract_whole w

/-- Settles O4: a request through its ports, a frame word through its frame. -/
theorem encodeGivesCanonicalWord : Obligations.EncodeGivesCanonicalWord := by
  refine ⟨fun q i h => encode_of_decodePorts h, fun w i h => ?_⟩
  cases h
  exact congrArg Code.frame (wordOfFrame_frameOfWord w)

theorem decodePorts_setgain_reserved {p : Ports} (hop : p.op = 0x4) (hg : gainOfSel p.sel = none) :
    decodePorts p = .error (.reservedSelector p.op p.sel) := by
  simp [decodePorts, hop, hg]

theorem decodePorts_setoff_reserved {p : Ports} (hop : p.op = 0x6) (ho : offsetOfSel p.sel = none) :
    decodePorts p = .error (.reservedSelector p.op p.sel) := by
  simp [decodePorts, hop, ho]

/-- Settles O2: each word by evaluation of the decoder. -/
theorem specWordsDecodeAsWritten : Obligations.SpecWordsDecodeAsWritten := by
  unfold Obligations.SpecWordsDecodeAsWritten
  decide

end Sys2Proof

namespace Sys2Proof.Machine

/-- The step on a code the decoder rejects. -/
theorem step_withCode_error {code : Code} {r : Reject} (s : State) (h : decode code = .error r) :
    step (s.withCode code) = .refused (refusalOf r) := by
  simp [step, fetch, State.withCode, h]

/-- A MOMENT whose selector is not one of the three policies is refused by its selector (R67, R70). -/
theorem exec_decodeMoment_reserved {p : Ports} (s : State) (hsel : 3 ≤ p.sel.toNat) :
    exec (decodeMoment p) s = .refused (.reservedSelector 0x8 p.sel) := by
  unfold decodeMoment
  split <;> rename_i h <;> rw [h] at hsel ⊢
  case h_1 | h_2 | h_3 => exact absurd hsel (by decide)
  all_goals rfl

/-- Settles O5: the operations 0xC to 0xE and a reserved MOMENT are refused as operations, the other reserved
selectors by the decoder. -/
theorem reservedCodesAreRefused : Obligations.ReservedCodesAreRefused := by
  intro s q
  refine ⟨?_, ?_, ?_⟩
  · rintro (hop | hop | hop) <;> rw [hop]
    · exact step_withCode (i := .reservedC) s (by simp [decode, decodePorts, hop])
    · exact step_withCode (i := .reservedD) s (by simp [decode, decodePorts, hop])
    · exact step_withCode (i := .reservedE) s (by simp [decode, decodePorts, hop])
  · rintro (hop | hop | hop) hsel
    · exact step_withCode_error (code := .req q) s
        (decodePorts_setgain_reserved hop ((gainOfSel_eq_none_iff _).2 hsel))
    · rw [hop]
      exact step_withCode_error (code := .req q) s (decodePorts_gadj_reserved hop ((gainOfSel_eq_none_iff _).2 hsel))
    · rw [hop]
      exact (step_withCode (code := .req q) s (decodePorts_moment hop)).trans (exec_decodeMoment_reserved s hsel)
  · intro hop hsel
    exact step_withCode_error (code := .req q) s (decodePorts_setoff_reserved hop ((offsetOfSel_eq_none_iff _).2 hsel))

/-- Settles O6: each reserved row is refused by definition; the selectors 4 to 7 are 4 + k. -/
theorem reservedOperationsStop : Obligations.ReservedOperationsStop := by
  intro s k
  have hk : ∀ k : BitVec 2, 1#1 ++ k = BitVec.ofNat 3 (4 + k.toNat) := by decide
  exact ⟨rfl, rfl, rfl, rfl, by rw [← hk k]; rfl⟩

theorem guarded_next_refused_iff (ok : Bool) (op : BitVec 4) (t : State) :
    guarded ok op (.next t) = .refused (.operandOutOfRange op) ↔ ¬ok = true := by
  cases ok <;> simp [guarded]

theorem sensorsOk_iff_sensorRange (phi theta sp sq sr : S32) :
    sensorsOk phi theta sp sq sr = true ↔
      sensorRange phi ∧ sensorRange theta ∧ sensorRange sp ∧ sensorRange sq ∧ sensorRange sr := by
  simp only [sensorsOk_iff, inS16_iff, sensorRange]

/-- Settles O7: each of these operations is guarded by the range check of its operands. -/
theorem outOfRangeOperandsAreRefused : Obligations.OutOfRangeOperandsAreRefused := by
  refine ⟨fun s a => ?_, fun s o a => ?_, fun s sr => ⟨?_, ?_⟩, fun s phi theta sp sq sr => ⟨?_, ?_⟩⟩
  · exact (guarded_next_refused_iff _ _ _).trans (not_congr (inU8_iff a))
  · exact (guarded_next_refused_iff _ _ _).trans (not_congr (inS16_iff a))
  · exact (guarded_next_refused_iff _ _ _).trans (not_congr (inS16_iff sr))
  · exact (guarded_next_refused_iff _ _ _).trans (not_congr (inS16_iff sr))
  · exact (guarded_next_refused_iff _ _ _).trans (not_congr (sensorsOk_iff_sensorRange phi theta sp sq sr))
  · exact (guarded_next_refused_iff _ _ _).trans (not_congr (sensorsOk_iff_sensorRange phi theta sp sq sr))

end Sys2Proof.Machine
end

section
/-! The step (10_state.md R23, 20_memory.md R51, 30_encoding.md R70). -/

namespace Sys2Proof.Machine

theorem step_of_inbox_nil {s : State} (h : s.inbox = []) : step s = .next (s.put s.block Response.none) := by
  simp [step, fetch, h, idle, done_eq]

/-- A state with a request waiting is one where that request was put before the rest. -/
theorem eq_withCode_of_inbox {s : State} {code : Code} {rest : List Code} (h : s.inbox = code :: rest) :
    s = ({ s with inbox := rest } : State).withCode code := by
  rw [State.withCode, ← h]

/-- Settles O8: the three cases of the fetch. -/
theorem stepPerformsOldestRequest : Obligations.StepPerformsOldestRequest := by
  intro s
  refine ⟨fun code rest i hin hd => ?_, fun code rest op sel hin hd => ?_, step_of_inbox_nil⟩
  · conv_lhs => rw [eq_withCode_of_inbox hin]
    exact step_withCode _ hd
  · rw [eq_withCode_of_inbox hin]
    exact step_withCode_error _ hd

/-- Settles O9: the two answers of `exec`, by well-formedness. -/
theorem wellFormedOperationsComplete : Obligations.WellFormedOperationsComplete :=
  fun _ s => ⟨fun h => ⟨_, exec_of_wf s h⟩, exec_of_not_wf s⟩

/-- Settles O10: an operation keeps the configuration and the inbox it is given, and a step gives it the rest of the
inbox. -/
theorem stepKeepsConfiguration : Obligations.StepKeepsConfiguration := by
  intro s t h
  obtain ⟨hin, rfl⟩ | ⟨code, rest, i, hin, -, hi⟩ := step_next h
  · rw [hin]
    exact ⟨rfl, hin⟩
  · obtain ⟨hcfg, hinbox, -⟩ := exec_onlyChanges hi
    rw [hin]
    exact ⟨hcfg, hinbox⟩

end Sys2Proof.Machine

namespace Sys2Proof

theorem exists_config_iff (d : ConfigData) : (∃ c : Config, c.toConfigData = d) ↔ d.wellFormed = true :=
  ⟨fun ⟨c, h⟩ => h ▸ c.wf, fun h => ⟨⟨d, h⟩, rfl⟩⟩

/-- R5 item 5 chains its signs through row 2; the obligation compares each row with row 0. -/
theorem yawSigns_iff (n₀ n₁ n₂ n₃ : Int) : (n₀ = n₂ ∧ n₂ = -n₁ ∧ n₁ = n₃) ↔ (n₀ = n₂ ∧ n₀ = -n₁ ∧ n₀ = -n₃) := by
  omega

/-- Settles O1: a record can be paired with the proof of R5 exactly when it meets the seven items. -/
theorem configurationsAreTheWellFormedRecords : Obligations.ConfigurationsAreTheWellFormedRecords := by
  intro d
  rw [exists_config_iff, wellFormed_iff]
  simp only [ConfigData.MixOk, yawSigns_iff]
  simp [and_assoc]

end Sys2Proof
end

section
/-! The inbound queue (40_codec.md R86, 30_encoding.md R73): what PUSH, PUSHFRAME and SENDCMD append. -/

namespace Sys2Proof.Machine

theorem inU8_of_range {a : S32} (h₀ : 0 ≤ a.toInt) (h₁ : a.toInt ≤ 255) : Instr.wf (.push a) = true :=
  (inU8_iff a).2 ⟨h₀, h₁⟩

/-- Settles O11: the low byte of the operand is its value modulo 2^8. -/
theorem pushAppendsByte : Obligations.PushAppendsByte := by
  intro a s h₀ h₁
  have hb : a.extractLsb' 0 8 = BitVec.ofNat 8 a.toNat := by
    apply BitVec.eq_of_toNat_eq
    rw [BitVec.extractLsb'_toNat, BitVec.toNat_ofNat, Nat.shiftRight_zero]
  rw [exec_of_wf s (inU8_of_range h₀ h₁), effect, hb]
  rfl

theorem exec_pushframe (f : Frame) (s : State) :
    exec (.pushframe f) s = .next (s.put { s.block with rxq := s.block.rxq ++ frameBytes f } Response.none) := by
  rw [exec_of_wf s rfl, effect, Block.rxAppendFrame_eq]

theorem exec_sendcmd (mode gain : Byte) (lift pitch roll yaw : BitVec 7) (s : State) :
    exec (.sendcmd mode gain lift pitch roll yaw) s =
      exec (.pushframe (encodePayload s.cfg mode gain lift pitch roll yaw)) s := rfl

/-- Settles O12: the eight RxAppend are one append. -/
theorem pushframeAppendsEightBytes : Obligations.PushframeAppendsEightBytes :=
  fun _ _ _ _ _ _ _ _ s => exec_pushframe _ s

/-- R96: the byte of an axis is its value modulo 128. -/
theorem toNat_axisByte (v : BitVec 7) : ((axisByte v).toNat : Int) = v.toInt % 128 := by
  revert v
  decide

theorem encodePayload_chk (c : Config) (mode gain : Byte) (lift pitch roll yaw : BitVec 7) :
    (encodePayload c mode gain lift pitch roll yaw).chk =
      xorShifted c.header mode gain (axisByte lift) (axisByte pitch) (axisByte roll) (axisByte yaw) :=
  chk7_eq_shift ..

/-- Settles O13: SENDCMD is the PUSHFRAME of the encoded payload. -/
theorem sendcmdAppendsEncodedFrame : Obligations.SendcmdAppendsEncodedFrame := by
  intro mode gain lift pitch roll yaw s
  refine ⟨axisByte lift, axisByte pitch, axisByte roll, axisByte yaw, ?_, toNat_axisByte _, toNat_axisByte _,
    toNat_axisByte _, toNat_axisByte _⟩
  rw [exec_sendcmd, exec_pushframe, ← encodePayload_chk]
  rfl

end Sys2Proof.Machine
end

section
/-! The combinational functions of the codec (40_codec.md R81 to R85). -/

namespace Sys2Proof.Machine

/-- Settles O21: bit by bit, after the shift. -/
theorem checksumIsXorTree : Obligations.ChecksumIsXorTree := fun h m g l p r y _ hk => chk7_bit h m g l p r y hk

theorem srest_eq_signRestored (b : Byte) : srest b = signRestored b := srest_eq_ite b

theorem srest_bit7 (b : Byte) : (srest b).getLsbD 7 = (b.getLsbD 7 || b.getLsbD 6) := by
  revert b
  decide

theorem srest_low_bits (b : Byte) (k : Fin 7) : (srest b).getLsbD k = b.getLsbD k := by
  revert b k
  decide

/-- The table of R85 in one formula: 128 is the weight bit 6 gains when it is copied into bit 7. -/
theorem toInt_srest (b : Byte) :
    (srest b).toInt =
      if b.toNat < 0x40 then (b.toNat : Int)
      else if b.toNat < 0x80 then (b.toNat : Int) - 128
      else (b.toNat : Int) - 256 := by
  revert b
  decide

/-- Settles O23: bit by bit from the definition, the ranges from the table of R85. -/
theorem signRestorerValues : Obligations.SignRestorerValues := by
  intro b
  have ht := toInt_srest b
  have hb := b.isLt
  refine ⟨srest_bit7 b, srest_low_bits b, fun h => ?_, fun h₁ h₂ => ?_, fun h => ?_, ?_, srest_idem b⟩
  · rw [ht, if_pos h]
  · rw [ht, if_neg (by omega), if_pos h₂]
  · rw [ht, if_neg (by omega), if_neg (by omega)]
  · rw [ht]
    split_ifs <;> omega

end Sys2Proof.Machine
end

section
/-! DECODE (40_codec.md R87 to R95): its outcome by what it finds, and what it finds by what the queue holds. -/

namespace Sys2Proof.Machine

theorem exec_decode_of_dropped {s : State} (h : ∃ why, examine s.cfg.header s.block.rxq = .dropped why) :
    exec .decode s = dropped s := by
  obtain ⟨why, h⟩ := h
  rw [exec_of_wf s rfl, effect, h]
  rfl

theorem exec_decode_of_accepted {s : State} {p : Snapshot} (h : examine s.cfg.header s.block.rxq = .accepted p) :
    exec .decode s = acceptedWith s p := by
  rw [exec_of_wf s rfl, effect, h]
  rfl

/-- The queue has no other influence on DECODE than what is found in it: it is emptied whatever it held. -/
theorem exec_decode_withQueue {s : State} {q : List Byte}
    (h : examine s.cfg.header s.block.rxq = examine s.cfg.header q) :
    exec .decode s = exec .decode (withQueue s q) := by
  cases he : examine s.cfg.header q with
  | dropped why =>
    rw [exec_decode_of_dropped ⟨why, h.trans he⟩, exec_decode_of_dropped (s := withQueue s q) ⟨why, he⟩]
    rfl
  | accepted p =>
    rw [exec_decode_of_accepted (h.trans he), exec_decode_of_accepted (s := withQueue s q) he]
    rfl

/-- Nothing is accepted when fewer than seven bytes stand behind the first sentinel, where there is one. -/
theorem examine_dropped_of_short {h : Byte} {q : List Byte}
    (hq : ∀ pre post, h ∉ pre → q = pre ++ h :: post → post.length < 7) : ∃ why, examine h q = .dropped why := by
  by_cases hm : h ∈ q
  · obtain ⟨pre, post, rfl, hp⟩ := List.eq_append_cons_of_mem hm
    rw [examine_sentinel h post hp, collect_short h (hq pre post hp rfl)]
    exact ⟨_, rfl⟩
  · exact examine_no_sentinel h q hm

/-- The sentinel and the seven bytes behind it decide alone. -/
theorem examine_append_frame {h : Byte} {pre : List Byte} (f : Frame) (post : List Byte) (hp : h ∉ pre)
    (hf : f.header = h) :
    examine h (pre ++ (frameBytes f ++ post)) =
      if frameChecks f then .accepted (snapshotOf f) else .dropped .chk := by
  subst hf
  exact examine_sentinel f.header _ hp

theorem frameChecks_mk_iff (h m g l p r y c : Byte) :
    frameChecks ⟨h, m, g, l, p, r, y, c⟩ = true ↔ c = xorShifted h m g l p r y := frameChecks_iff _

theorem snapshotOf_mk (h m g l p r y c : Byte) :
    snapshotOf ⟨h, m, g, l, p, r, y, c⟩ = acceptedSnapshot m g l p r y := by
  simp only [snapshotOf, srest_eq_signRestored, acceptedSnapshot]

/-- Settles O15: the collection fails. -/
theorem decodeDropsShortFrame : Obligations.DecodeDropsShortFrame := by
  intro s pre post hp hlen hq
  apply exec_decode_of_dropped
  rw [hq, examine_sentinel _ post hp, collect_short _ hlen]
  exact ⟨_, rfl⟩

/-- Settles O16: the check fails. -/
theorem decodeDropsWrongChecksum : Obligations.DecodeDropsWrongChecksum := by
  intro s pre post m g l p r y c hp hq hc
  apply exec_decode_of_dropped
  have he := examine_append_frame ⟨s.cfg.header, m, g, l, p, r, y, c⟩ post hp rfl
  rw [if_neg (mt (frameChecks_mk_iff ..).1 hc)] at he
  rw [hq]
  exact ⟨_, he⟩

/-- Settles O17: the check holds. -/
theorem decodeAcceptsValidFrame : Obligations.DecodeAcceptsValidFrame := by
  intro s pre post m g l p r y hp hq
  apply exec_decode_of_accepted
  have he := examine_append_frame ⟨s.cfg.header, m, g, l, p, r, y, xorShifted s.cfg.header m g l p r y⟩ post hp rfl
  rw [if_pos ((frameChecks_mk_iff ..).2 rfl), snapshotOf_mk] at he
  rw [hq]
  exact he

theorem collect_take_seven (h : Byte) {q : List Byte} (hq : 7 ≤ q.length) : collect h (q.take 7) = collect h q := by
  match q, hq with
  | _ :: _ :: _ :: _ :: _ :: _ :: _ :: _, _ => rfl

/-- Settles O14: the hunt stops at the first sentinel, and the collection takes the seven bytes behind it. -/
theorem decodeHuntsToFirstSentinel : Obligations.DecodeHuntsToFirstSentinel := by
  intro s
  refine ⟨fun hq => exec_decode_of_dropped (examine_no_sentinel _ _ hq), fun pre post hp hq => ⟨?_, fun hlen => ?_⟩⟩
  · apply exec_decode_withQueue
    rw [hq, examine_sentinel _ post hp]
    exact (examine_sentinel _ post List.not_mem_nil).symm
  · apply exec_decode_withQueue
    rw [hq, examine_sentinel _ post hp, ← collect_take_seven _ hlen]
    exact (examine_sentinel _ (post.take 7) List.not_mem_nil).symm

theorem settle_cmd_of_not_valid (k : Block) {v : Verdict} (h : v.valid = false) : (k.settle v).cmd = k.cmd := by
  cases v with
  | dropped why => rfl
  | accepted p => exact absurd h.symm Bool.false_ne_true

theorem settle_accHist (k : Block) (v : Verdict) :
    (k.settle v).accHist = k.accHist + if v.valid then 1 else 0 := by
  cases v <;> rfl

/-- Settles O18: whatever is found is settled, which empties the queue, and only an acceptance writes more. -/
theorem decodeTouchesOnlyCodecState : Obligations.DecodeTouchesOnlyCodecState := by
  intro s
  have h := exec_of_wf s (i := .decode) rfl
  refine ⟨_, h, Block.settle_rxq _ _, exec_onlyChanges h, rfl, fun hv => ?_, fun hv => ⟨?_, ?_⟩⟩
  · exact (settle_accHist _ _).trans (congrArg _ (if_pos hv))
  · exact settle_cmd_of_not_valid _ hv
  · exact (settle_accHist _ _).trans (congrArg _ (if_neg (Bool.eq_false_iff.1 hv)))

/-- Settles O26: only DECODE and PKT settle a verdict; what any other operation but RESET ends with leaves the count
and answers no `valid`. -/
theorem acceptanceIsCountedOnce : Obligations.AcceptanceIsCountedOnce := by
  intro i s t h hr
  obtain ⟨-, rfl⟩ := exec_next h
  cases i with
  | reset => exact absurd rfl hr
  | decode => exact settle_accHist _ _
  | pkt f => exact settle_accHist _ _
  | gadj g dir => cases dir <;> rfl
  | _ => rfl

theorem exec_pkt (f : Frame) (s : State) :
    exec (.pkt f) s = exec .decode (withQueue s (frameBytes f ++ s.block.rxq)) := rfl

/-- Settles O19: PKT decodes with the frame at the head of the queue, where no byte stands before its header. -/
theorem packetRunsAsDecodeOfQueueHead : Obligations.PacketRunsAsDecodeOfQueueHead := by
  refine ⟨fun f s => ⟨⟨_, exec_of_wf s rfl⟩, exec_pkt f s⟩, fun m g l p r y c s => ⟨?_, fun hc => ?_⟩⟩
  · rintro rfl
    rw [exec_pkt]
    exact decodeAcceptsValidFrame _ [] s.block.rxq m g l p r y List.not_mem_nil rfl
  · rw [exec_pkt]
    exact decodeDropsWrongChecksum _ [] s.block.rxq m g l p r y c List.not_mem_nil rfl hc

theorem frameChecks_encodePayload (c : Config) (mode gain : Byte) (lift pitch roll yaw : BitVec 7) :
    frameChecks (encodePayload c mode gain lift pitch roll yaw) = true :=
  (frameChecks_iff _).2 (encodePayload_chk c mode gain lift pitch roll yaw)

/-- Settles O24: the encoded frame is found behind a queue without a sentinel and passes its check, and the sign
restorer undoes the masking of the axes. -/
theorem encodedCommandRoundTrips : Obligations.EncodedCommandRoundTrips := by
  intro s mode gain lift pitch roll yaw hq
  have he := examine_append_frame (encodePayload s.cfg mode gain lift pitch roll yaw) [] hq rfl
  rw [if_pos (frameChecks_encodePayload ..), List.append_nil] at he
  refine ⟨_, _, (exec_sendcmd ..).trans (exec_pushframe _ s), exec_decode_of_accepted he, rfl, rfl, rfl,
    srest_axisByte lift, srest_axisByte pitch, srest_axisByte roll, srest_axisByte yaw, rfl, rfl, rfl, rfl, ?_⟩
  intro g hg
  cases g <;> simp_all [Group.Agree]

/-! ### What the check detects (R83) -/

/-- The exclusive or the checksum is taken from (R80). -/
def coveredXor (f : Frame) : Byte :=
  f.header ^^^ f.mode ^^^ f.gain ^^^ f.lift ^^^ f.pitch ^^^ f.roll ^^^ f.yaw

theorem frameChecks_iff_coveredXor (f : Frame) : frameChecks f = true ↔ f.chk = coveredXor f >>> 1 :=
  frameChecks_iff f

/-- A replaced payload byte enters the exclusive or in the place of the old one. -/
theorem coveredXor_withPayloadByte (f : Frame) (b : Byte) (k : Fin 6) :
    coveredXor (withPayloadByte f b k) ^^^ payloadByte f k = coveredXor f ^^^ b := by
  fin_cases k <;> simp only [coveredXor, withPayloadByte, payloadByte] <;> ac_rfl

theorem coveredXor_withPayloadByte_shift_iff (f : Frame) (b : Byte) (k : Fin 6) :
    coveredXor f >>> 1 = coveredXor (withPayloadByte f b k) >>> 1 ↔ b >>> 1 = payloadByte f k >>> 1 := by
  have h := congrArg (fun x : Byte => x >>> 1) (coveredXor_withPayloadByte f b k)
  simp only [BitVec.ushiftRight_xor_distrib] at h
  constructor <;> intro he
  · rw [he] at h
    exact ((BitVec.xor_right_inj _).1 h).symm
  · rw [he] at h
    exact ((BitVec.xor_left_inj _).1 h).symm

theorem withPayloadByte_header (f : Frame) (b : Byte) (k : Fin 6) : (withPayloadByte f b k).header = f.header := by
  fin_cases k <;> rfl

theorem withPayloadByte_chk (f : Frame) (b : Byte) (k : Fin 6) : (withPayloadByte f b k).chk = f.chk := by
  fin_cases k <;> rfl

/-- Of a checked frame with a payload byte replaced, the check holds exactly when bits 7:1 of the byte are kept. -/
theorem frameChecks_withPayloadByte_iff {f : Frame} (hf : frameChecks f = true) (b : Byte) (k : Fin 6) :
    frameChecks (withPayloadByte f b k) = true ↔ b >>> 1 = payloadByte f k >>> 1 := by
  rw [frameChecks_iff_coveredXor, withPayloadByte_chk, (frameChecks_iff_coveredXor f).1 hf,
    coveredXor_withPayloadByte_shift_iff]

theorem frameChecks_other_chk {f : Frame} (hf : frameChecks f = true) {b : Byte} (hb : b ≠ f.chk) :
    ¬ frameChecks { f with chk := b } = true := by
  rw [frameChecks_iff_coveredXor] at hf ⊢
  exact fun h => hb (h.trans hf.symm)

theorem validPacket_iff (c : Config) (f : Frame) :
    validPacket c f = true ↔ f.header = c.header ∧ frameChecks f = true := by
  rw [validPacket, Bool.and_eq_true, beq_iff_eq]

/-- Of a queue that holds one frame behind the sentinel, DECODE accepts exactly a checked one. -/
theorem valid_of_decode_frame_iff {s t : State} {f : Frame} (hf : f.header = s.cfg.header)
    (h : exec .decode (withQueue s (frameBytes f)) = .next t) : t.resp.valid = true ↔ frameChecks f = true := by
  have he := examine_append_frame f [] List.not_mem_nil hf
  obtain ⟨-, rfl⟩ := exec_next h
  change (examine s.cfg.header (frameBytes f)).valid = true ↔ _
  rw [List.nil_append, List.append_nil] at he
  rw [he]
  cases frameChecks f <;> simp [Verdict.valid]

theorem resp_of_dropped {s t : State} (h : dropped s = .next t) : t.resp.valid = false := by
  cases h
  rfl

/-- A frame whose first byte is not the sentinel ends short or unsynchronised. -/
theorem examine_dropped_of_header_ne {h : Byte} {f : Frame} (hf : f.header ≠ h) :
    ∃ why, examine h (frameBytes f) = .dropped why := by
  apply examine_dropped_of_short
  intro pre post _ hq
  have hlen := congrArg List.length hq
  cases pre with
  | nil => exact absurd (List.cons.inj hq).1 hf
  | cons b pre =>
    simp [frameBytes] at hlen
    omega

/-- Settles O22: a payload byte by the exclusive or, the checksum byte by the comparison, the header by the hunt. -/
theorem singleByteCorruptionDetection : Obligations.SingleByteCorruptionDetection := by
  intro s f hf
  obtain ⟨hh, hchk⟩ := (validPacket_iff _ _).1 hf
  refine ⟨fun k b t h => ?_, fun b t hb h => ?_, fun b t hb h => ?_⟩
  · rw [valid_of_decode_frame_iff ((withPayloadByte_header f b k).trans hh) h]
    exact frameChecks_withPayloadByte_iff hchk b k
  · rw [← Bool.not_eq_true, valid_of_decode_frame_iff (f := { f with chk := b }) hh h]
    exact frameChecks_other_chk hchk hb
  · rw [exec_decode_of_dropped (examine_dropped_of_header_ne (hh ▸ hb))] at h
    exact resp_of_dropped h

end Sys2Proof.Machine
end

section
/-! Lists of operations (30_encoding.md R73): the eight PUSH of a frame, and what a pseudo-operation expands to. -/

namespace Sys2Proof.Machine

theorem execAll_cons {i : Instr} {s t : State} (rest : List Instr) (h : exec i s = .next t) :
    execAll (i :: rest) s = execAll rest t := by
  rw [execAll, h]

theorem execAll_append {is js : List Instr} {s t : State} (h : execAll is s = .next t) :
    execAll (is ++ js) s = execAll js t := by
  induction is generalizing s with
  | nil => cases h; rfl
  | cons i is ih =>
    cases hi : exec i s with
    | next u =>
      rw [execAll_cons _ hi] at h
      rw [List.cons_append, execAll_cons _ hi, ih h]
    | fault r => rw [execAll, hi] at h; cases h
    | refused r => rw [execAll, hi] at h; cases h

theorem execAll_singleton (i : Instr) (s : State) : execAll [i] s = exec i s := by
  rw [execAll]
  cases exec i s <;> rfl

theorem exec_push_byte (b : Byte) (s : State) :
    exec (.push (b.setWidth 32)) s = .next (s.put (s.block.rxAppend b) Response.none) := by
  have hwf : Instr.wf (.push (b.setWidth 32)) = true := by
    revert b
    decide
  have hb : (b.setWidth 32).extractLsb' 0 8 = b := by
    revert b
    decide
  rw [exec_of_wf s hwf, effect, hb]

/-- One PUSH for each byte of a list. -/
def pushesOfBytes (bs : List Byte) : List Instr := bs.map fun b => .push (b.setWidth 32)

theorem execAll_pushesOfBytes {bs : List Byte} (hbs : bs ≠ []) (s : State) :
    execAll (pushesOfBytes bs) s = .next (s.put { s.block with rxq := s.block.rxq ++ bs } Response.none) := by
  induction bs generalizing s with
  | nil => exact absurd rfl hbs
  | cons b bs ih =>
    rw [pushesOfBytes, List.map_cons, execAll_cons _ (exec_push_byte b s)]
    cases bs with
    | nil => rfl
    | cons b' bs =>
      refine (ih (List.cons_ne_nil _ _) _).trans ?_
      simp [State.put, Block.rxAppend]

theorem toInt_port_axis (v : S8) : (port v.toInt).toInt = v.toInt := by
  have h₁ := BitVec.toInt_lt (x := v)
  have h₂ := BitVec.le_toInt v
  norm_num at h₁ h₂
  exact toInt_ofInt_32 (by omega) (by omega)

theorem exec_loadcmd_eq_setcmd (s : State) :
    exec .loadcmd s =
      exec (.setcmd (port s.block.cmd.axes.lift.toInt) (port s.block.cmd.axes.pitch.toInt)
        (port s.block.cmd.axes.roll.toInt) (port s.block.cmd.axes.yaw.toInt)) s := by
  rw [exec_of_wf s rfl, exec_of_wf s rfl]
  simp only [effect, toInt_port_axis]

theorem exec_pushframe_eq_pushes (f : Frame) (s : State) : exec (.pushframe f) s = execAll (pushesOf f) s :=
  (exec_pushframe f s).trans (execAll_pushesOfBytes (bs := frameBytes f) (List.cons_ne_nil _ _) s).symm

/-- A guarded operation and MIX, as one guarded operation. -/
theorem execAll_guarded_mix {i : Instr} {s : State} {ok : Bool} {op : BitVec 4} {k : Block}
    (h : exec i s = guarded ok op (done s k Response.none)) :
    execAll [i, .mix] s = guarded ok op (done s (k.mixed s.cfg) Response.none) := by
  rw [execAll, h]
  cases ok <;> rfl

/-- Settles O42: each pseudo-operation against its expansion; any other is its own. -/
theorem pseudoOperationsExpand : Obligations.PseudoOperationsExpand := by
  intro i s
  cases i with
  | loadcmd => exact (exec_loadcmd_eq_setcmd s).trans (execAll_singleton _ s).symm
  | zeroact => exact (exec_zeroact_eq_setact s).trans (execAll_singleton _ s).symm
  | tickManual => rfl
  | tickYaw sr => exact (execAll_guarded_mix (i := .momentYaw sr) rfl).symm
  | tickFull phi theta sp sq sr => exact (execAll_guarded_mix (i := .momentFull phi theta sp sq sr) rfl).symm
  | pushframe f => exact exec_pushframe_eq_pushes f s
  | sendcmd mode gain lift pitch roll yaw => exact exec_pushframe_eq_pushes _ s
  | _ => exact (execAll_singleton _ s).symm

/-- Settles O41: within the ranges, the MOMENT, the MIX and the TICK all complete. -/
theorem tickIsMomentThenMix : Obligations.TickIsMomentThenMix := by
  intro s
  refine ⟨⟨_, _, rfl, rfl, rfl⟩, fun sr h => ?_, fun phi theta sp sq sr h₁ h₂ h₃ h₄ h₅ => ?_⟩
  · have hwf : inS16 sr = true := (inS16_iff sr).2 h
    exact ⟨_, _, exec_of_wf s hwf, exec_mix _, exec_of_wf s hwf⟩
  · have hwf := (sensorsOk_iff_sensorRange phi theta sp sq sr).2 ⟨h₁, h₂, h₃, h₄, h₅⟩
    exact ⟨_, _, exec_of_wf s hwf, exec_mix _, exec_of_wf s hwf⟩

/-! ### A frame split across two polls (R186) -/

theorem length_frameBytes (f : Frame) : (frameBytes f).length = 8 := rfl

/-- Fewer than eight bytes hold no frame. -/
theorem examine_dropped_of_length_lt {h : Byte} {q : List Byte} (hq : q.length < 8) :
    ∃ why, examine h q = .dropped why := by
  apply examine_dropped_of_short
  rintro pre post - rfl
  rw [List.length_append, List.length_cons] at hq
  omega

/-- From an empty queue, one to seven bytes and a DECODE leave the block as it was. -/
theorem execAll_pushes_decode {s : State} {bs : List Byte} (hs : s.block.rxq = []) (hne : bs ≠ [])
    (hlen : bs.length < 8) :
    execAll (pushesOfBytes bs ++ [Instr.decode]) s = .next (s.put s.block Response.none) := by
  rw [execAll_append (execAll_pushesOfBytes hne s), execAll_singleton]
  refine (exec_decode_of_dropped (examine_dropped_of_length_lt ?_)).trans ?_
  · simpa [hs] using hlen
  · rw [dropped, ← hs]
    rfl

/-- Settles O25: neither part is a whole frame, so each poll drops it. -/
theorem frameSplitAcrossPollsIsLost : Obligations.FrameSplitAcrossPollsIsLost := by
  intro s f k hs _ hk₁ hk₇
  have hlen := length_frameBytes f
  have hfirst : execAll ((pushesOf f).take k ++ [Instr.decode]) s = .next (s.put s.block Response.none) := by
    rw [pushesOf, ← List.map_take]
    exact execAll_pushes_decode hs (List.ne_nil_of_length_pos (by rw [List.length_take]; omega))
      (by rw [List.length_take]; omega)
  refine ⟨s.put s.block Response.none, (execAll_append hfirst).trans ?_, rfl, rfl⟩
  rw [pushesOf, ← List.map_drop]
  exact execAll_pushes_decode hs (List.ne_nil_of_length_pos (by rw [List.length_drop]; omega))
    (by rw [List.length_drop]; omega)

end Sys2Proof.Machine
end

section
/-! SETMOM and MOMENT (41_mixer.md R112 to R119): the exact value of each quantity, within its register. -/

namespace Sys2Proof.Machine

/-- Settles O27: SETMOM writes its operands as they are. -/
theorem setmomStoresMoments : Obligations.SetmomStoresMoments := fun _ _ _ _ s => exec_of_wf s rfl

theorem toInt_scaled_axis {k : Int} (hk : ScaleOk k) (v : S8) :
    (BitVec.ofInt 32 (k * v.toInt)).toInt = k * v.toInt := by
  have h := scaled_axis_bound hk v
  exact toInt_ofInt_32 (by omega) (by omega)

/-- R115. -/
theorem abs_toInt_scaled_axis_le {k : Int} (hk : ScaleOk k) (v : S8) :
    |(BitVec.ofInt 32 (k * v.toInt)).toInt| ≤ 2 ^ 23 := by
  rw [toInt_scaled_axis hk]
  exact abs_le.2 (scaled_axis_bound hk v)

theorem toInt_yawFeedback (c : Config) {k : Block} {sr : S32} (hg : k.gains.Ok) (hs : sensorRange sr) :
    (BitVec.ofInt 32 (yawFeedback c k sr)).toInt = yawFeedback c k sr := by
  have h := yawFeedback_bound c k sr hg.1 ((inS16_iff sr).2 hs)
  exact toInt_ofInt_32 (by omega) (by omega)

/-- R119. -/
theorem abs_toInt_yawFeedback_le (c : Config) {k : Block} {sr : S32} (hg : k.gains.Ok) (hs : sensorRange sr) :
    |(BitVec.ofInt 32 (yawFeedback c k sr)).toInt| ≤ 1073676161 := by
  rw [toInt_yawFeedback c hg hs]
  exact abs_le.2 (yawFeedback_bound c k sr hg.1 ((inS16_iff sr).2 hs))

theorem toInt_tiltFeedback (c : Config) {gs : Gains} (axis : S8) {angle rate : S32} (ao ro : S16) (hg : gs.Ok)
    (ha : sensorRange angle) (hr : sensorRange rate) :
    (BitVec.ofInt 32 (tiltFeedback c gs axis angle rate ao ro)).toInt =
      tiltFeedback c gs axis angle rate ao ro := by
  have h := tiltFeedback_bound c gs axis angle rate ao ro hg ((inS16_iff angle).2 ha) ((inS16_iff rate).2 hr)
  exact toInt_ofInt_32 (by omega) (by omega)

/-- R119. -/
theorem abs_toInt_tiltFeedback_le (c : Config) {gs : Gains} (axis : S8) {angle rate : S32} (ao ro : S16)
    (hg : gs.Ok) (ha : sensorRange angle) (hr : sensorRange rate) :
    |(BitVec.ofInt 32 (tiltFeedback c gs axis angle rate ao ro)).toInt| ≤ 1081999106 := by
  rw [toInt_tiltFeedback c axis ao ro hg ha hr]
  exact abs_le.2
    (tiltFeedback_bound c gs axis angle rate ao ro hg ((inS16_iff angle).2 ha) ((inS16_iff rate).2 hr))

theorem scaleOk_kLift (c : Config) : ScaleOk c.kLift := by
  obtain ⟨hlo, hhi, -⟩ := c.scalesOk
  exact ⟨by omega, hhi⟩

/-- Settles O28: a scale of at most 2^16 times an axis of at most 2^7 fits the register. -/
theorem momentManualScalesAxes : Obligations.MomentManualScalesAxes := by
  intro s
  have h := exec_of_wf (i := .momentManual) s rfl
  have hlift := scaleOk_kLift s.cfg
  obtain ⟨-, -, hroll, hpitch, hyaw, -, -⟩ := s.cfg.scalesOk
  exact ⟨_, h, exec_onlyChanges h, rfl, toInt_scaled_axis hlift _, toInt_scaled_axis hroll _,
    toInt_scaled_axis hpitch _, toInt_scaled_axis hyaw _, abs_toInt_scaled_axis_le hlift _,
    abs_toInt_scaled_axis_le hroll _, abs_toInt_scaled_axis_le hpitch _, abs_toInt_scaled_axis_le hyaw _⟩

/-- Settles O29: the gain and the sensor ranges bound the yaw feedback within the register. -/
theorem momentYawFeedsBackYawRate : Obligations.MomentYawFeedsBackYawRate := by
  intro sr s hg hs
  have h := exec_of_wf (i := .momentYaw sr) s ((inS16_iff sr).2 hs)
  obtain ⟨-, -, hroll, hpitch, -, -, -⟩ := s.cfg.scalesOk
  exact ⟨_, h, exec_onlyChanges h, rfl, toInt_scaled_axis (scaleOk_kLift s.cfg) _, toInt_scaled_axis hroll _,
    toInt_scaled_axis hpitch _, toInt_yawFeedback _ hg hs, abs_toInt_yawFeedback_le _ hg hs⟩

/-- Settles O30: the gain and the sensor ranges bound each feedback term within the register. -/
theorem momentFullFeedsBackAnglesAndRates : Obligations.MomentFullFeedsBackAnglesAndRates := by
  intro phi theta sp sq sr s hg hphi htheta hsp hsq hsr
  have h := exec_of_wf (i := .momentFull phi theta sp sq sr) s
    ((sensorsOk_iff_sensorRange phi theta sp sq sr).2 ⟨hphi, htheta, hsp, hsq, hsr⟩)
  exact ⟨_, h, exec_onlyChanges h, rfl, toInt_scaled_axis (scaleOk_kLift s.cfg) _,
    toInt_tiltFeedback _ _ _ _ hg hphi hsp, toInt_tiltFeedback _ _ _ _ hg htheta hsq,
    toInt_yawFeedback _ hg hsr, abs_toInt_tiltFeedback_le _ _ _ _ hg hphi hsp,
    abs_toInt_tiltFeedback_le _ _ _ _ hg htheta hsq, abs_toInt_yawFeedback_le _ hg hsr⟩

end Sys2Proof.Machine
end

section
/-! MIX (41_mixer.md R120 to R131): the gate, the duty of a lane as a function of its quotient, and the adder tree. -/

namespace Sys2Proof.Machine

/-! ### The duty of a lane -/

theorem dutyOfSum_eq_dutyFor (c : Config) (sum : Int) : dutyOfSum c sum = dutyFor c (sum.tdiv 4) := by
  rw [dutyOfSum_eq, sat_eq_max_min _ c.effortOk.2.1, tdiv_eq_Int_tdiv, min_comm]
  rfl

theorem toNat_laneDuty_eq_dutyFor (c : Config) (r : MixRow) {lift : S8} (m : Moments) (h : 0 < lift.toInt) :
    ((laneDuty c r lift m).toNat : Int) = dutyFor c ((sumFor r m).tdiv 4) :=
  (laneDuty_open c r m h).trans (dutyOfSum_eq_dutyFor c _)

theorem dutyFor_mono (c : Config) {a b : Int} (h : a ≤ b) : dutyFor c a ≤ dutyFor c b :=
  Int.ediv_le_ediv (by positivity) (by omega)

theorem minEffort_shifted_le_dutyFor (c : Config) (quot : Int) : c.minEffort / 2 ^ c.dutyShift ≤ dutyFor c quot :=
  Int.ediv_le_ediv (by positivity) (le_max_left _ _)

theorem dutyFor_le_maxEffort_shifted (c : Config) (quot : Int) : dutyFor c quot ≤ c.maxEffort / 2 ^ c.dutyShift :=
  Int.ediv_le_ediv (by positivity) (max_le c.effortOk.2.1 (min_le_right _ _))

/-- Where the bias does not exceed the minimum effort, every quotient of zero or less gives the minimum. -/
theorem dutyFor_of_nonpos {c : Config} {quot : Int} (hb : c.effortBias ≤ c.minEffort) (hq : quot ≤ 0) :
    dutyFor c quot = c.minEffort / 2 ^ c.dutyShift := by
  have hmax := c.effortOk.2.1
  rw [dutyFor, max_eq_left (by omega)]

/-- R129: the two roundings differ on negative sums only, whose quotients are at most zero. -/
theorem dutyFor_tdiv_eq_ediv {c : Config} (hb : c.effortBias ≤ c.minEffort) (sum : Int) :
    dutyFor c (sum.tdiv 4) = dutyFor c (sum / 4) := by
  obtain hs | hs := le_total 0 sum
  · rw [Int.tdiv_eq_ediv_of_nonneg hs]
  · have ht : sum.tdiv 4 ≤ 0 := by
      rw [← tdiv_eq_Int_tdiv, ← show tdiv 0 4 = 0 from rfl]
      exact tdiv_mono hs
    rw [dutyFor_of_nonpos hb ht, dutyFor_of_nonpos hb (by omega)]

theorem exec_mix_ae {s t : State} (h : exec .mix s = .next t) :
    t.block.ae = mixDuties s.cfg s.block.cur.lift s.block.mom := by
  obtain ⟨-, rfl⟩ := exec_next h
  rfl

/-! ### The gate -/

theorem mixDuties_closed (c : Config) {lift : S8} (m : Moments) (h : lift.toInt ≤ 0) :
    mixDuties c lift m = Duties.zero := by
  simp only [mixDuties, laneDuty_closed c _ m h]
  rfl

/-- Settles O31: every lane of a closed gate is zero. -/
theorem mixGateClosedGivesZeros : Obligations.MixGateClosedGivesZeros := by
  intro s h
  rw [exec_mix, Block.mixed, mixDuties_closed _ _ h]
  rfl

/-- Settles O32: the lane duty with the gate open, in each of the four rows. -/
theorem mixGateOpenComputesDuties : Obligations.MixGateOpenComputesDuties := by
  intro s h
  have hx := exec_mix s
  exact ⟨_, hx, exec_onlyChanges hx, rfl, toNat_laneDuty_eq_dutyFor _ _ _ h, toNat_laneDuty_eq_dutyFor _ _ _ h,
    toNat_laneDuty_eq_dutyFor _ _ _ h, toNat_laneDuty_eq_dutyFor _ _ _ h, rfl, rfl⟩

theorem laneDuty_range (c : Config) (r : MixRow) {lift : S8} (m : Moments) (h : 0 < lift.toInt) :
    c.minEffort / 2 ^ c.dutyShift ≤ ((laneDuty c r lift m).toNat : Int) ∧
      ((laneDuty c r lift m).toNat : Int) ≤ c.maxEffort / 2 ^ c.dutyShift ∧
      ((laneDuty c r lift m).toNat : Int) ≤ c.maxDuty := by
  refine ⟨?_, ?_, laneDuty_ok c r lift m⟩
  · rw [toNat_laneDuty_eq_dutyFor c r m h]
    exact minEffort_shifted_le_dutyFor c _
  · rw [toNat_laneDuty_eq_dutyFor c r m h]
    exact dutyFor_le_maxEffort_shifted c _

/-- Settles O33: the clamp bounds, shifted, and the range every lane keeps. -/
theorem mixGateOpenDutyRange : Obligations.MixGateOpenDutyRange := by
  intro s t h hx d hd
  rw [exec_mix_ae hx] at hd
  simp only [mixDuties, List.mem_cons, List.not_mem_nil, or_false] at hd
  obtain rfl | rfl | rfl | rfl := hd
  all_goals exact laneDuty_range _ _ _ h

/-- Settles O34: MIX leaves the lift and the moments, so the second finds what the first found. -/
theorem secondMixRepeatsDuties : Obligations.SecondMixRepeatsDuties := by
  intro s
  refine ⟨_, _, exec_mix s, exec_mix _, rfl, ?_⟩
  simp

theorem laneDuty_mono (c : Config) {r : MixRow} {lift lift' : S8} {m m' : Moments} (h : 0 < lift.toInt)
    (h' : 0 < lift'.toInt) (hsum : sumFor r m ≤ sumFor r m') :
    (laneDuty c r lift m).toNat ≤ (laneDuty c r lift' m').toNat := by
  have hquot : (sumFor r m).tdiv 4 ≤ (sumFor r m').tdiv 4 := by
    rw [← tdiv_eq_Int_tdiv, ← tdiv_eq_Int_tdiv]
    exact tdiv_mono hsum
  have hd := dutyFor_mono c hquot
  rw [← toNat_laneDuty_eq_dutyFor c r m h, ← toNat_laneDuty_eq_dutyFor c r m' h'] at hd
  exact Int.ofNat_le.1 hd

/-- Settles O35: the quotient is monotone in the sum, and the duty in the quotient. -/
theorem mixIsMonotoneInLaneSum : Obligations.MixIsMonotoneInLaneSum := by
  intro s s' t t' hc h h' hx hx'
  rw [exec_mix_ae hx, exec_mix_ae hx', ← hc]
  exact ⟨laneDuty_mono _ h h', laneDuty_mono _ h h', laneDuty_mono _ h h', laneDuty_mono _ h h'⟩

/-- Settles O36: the lane duty with the gate open, its quotient exchanged for the floor. -/
theorem mixRoundingInvisibleUnderLowBias : Obligations.MixRoundingInvisibleUnderLowBias := by
  intro s t hb h hx
  simp only [exec_mix_ae hx, ← dutyFor_tdiv_eq_ediv hb]
  exact ⟨toNat_laneDuty_eq_dutyFor _ _ _ h, toNat_laneDuty_eq_dutyFor _ _ _ h, toNat_laneDuty_eq_dutyFor _ _ _ h,
    toNat_laneDuty_eq_dutyFor _ _ _ h⟩

/-- Settles O38: MIX writes the duties of the lift and the moments, which are zeros when the gate is closed. -/
theorem dutiesDependOnlyOnLiftAndMoments : Obligations.DutiesDependOnlyOnLiftAndMoments := by
  intro s s' t t' hx hx'
  rw [exec_mix_ae hx, exec_mix_ae hx']
  refine ⟨fun hc hl hm => by rw [hc, hl, hm], fun h h' => ?_⟩
  rw [mixDuties_closed _ _ h, mixDuties_closed _ _ h']

/-! ### The adder tree -/

theorem weightsOk_of_mem {c : Config} {r : MixRow}
    (hr : r ∈ [c.mixCoef.r0, c.mixCoef.r1, c.mixCoef.r2, c.mixCoef.r3]) : r.WeightsOk := by
  obtain ⟨h₀, h₁, h₂, h₃, -⟩ := c.mixOk
  simp only [List.mem_cons, List.not_mem_nil, or_false] at hr
  obtain rfl | rfl | rfl | rfl := hr
  · exact h₀
  · exact h₁
  · exact h₂
  · exact h₃

theorem tdiv_four_bound {a : Int} (h : -12884901888 ≤ a ∧ a ≤ 12884901888) :
    -3221225472 ≤ tdiv a 4 ∧ tdiv a 4 ≤ 3221225472 := by
  unfold tdiv
  split <;> omega

/-- Settles O37: by the weights of R5 a sum is at most six times 2^31, and the bias at most 2^31. -/
theorem adderTreeFits36Bits : Obligations.AdderTreeFits36Bits := by
  intro c m r hr
  have hsum := laneSum_bound (weightsOk_of_mem hr) m
  have hquot := tdiv_four_bound hsum
  have hbias := c.biasOk
  refine ⟨abs_lt.2 ?_, abs_lt.2 ?_, abs_lt.2 ?_⟩ <;> norm_num <;> omega

end Sys2Proof.Machine
end

section
/-! The clamp and the registers it guards (42_saturation_and_command.md R141 to R156). -/

namespace Sys2Proof.Machine

theorem sat_eq_self_iff {lo hi : Int} (v : Int) (h : lo ≤ hi) : sat v lo hi = v ↔ lo ≤ v ∧ v ≤ hi := by
  constructor
  · intro he
    rw [← he]
    exact ⟨sat_lower v h, sat_upper v h⟩
  · rintro ⟨h₁, h₂⟩
    exact sat_of_mem h₁ h₂

/-- Settles O44: from the bounds and the cases of the clamp. -/
theorem clampProperties : Obligations.ClampProperties :=
  fun v _ lo hi h => ⟨sat_lower v h, sat_upper v h, sat_eq_self_iff v h, sat_mono h,
    sat_of_mem (sat_lower v h) (sat_upper v h), sat_of_lt hi (by omega), sat_of_gt h (by omega)⟩

theorem toInt_satAxis (v : Int) : (satAxis v).toInt = max (-128) (min v 127) := by
  have hle : (-128 : Int) ≤ 127 := by decide
  rw [satAxis, toInt_ofInt_8 (sat_lower v hle) (sat_upper v hle), sat_eq_max_min v hle, min_comm]

theorem satAxis_toInt (v : S8) : satAxis v.toInt = v := by
  have h₁ := BitVec.toInt_lt (x := v)
  have h₂ := BitVec.le_toInt v
  norm_num at h₁ h₂
  rw [satAxis, sat_of_mem h₂ (by omega), BitVec.ofInt_toInt]

/-- Settles O45: the clamp in each axis. -/
theorem setcmdSaturatesAxes : Obligations.SetcmdSaturatesAxes := by
  intro a b c d s
  have h := exec_of_wf (i := .setcmd a b c d) s rfl
  exact ⟨_, h, exec_onlyChanges h, toInt_satAxis _, toInt_satAxis _, toInt_satAxis _, toInt_satAxis _, rfl, rfl⟩

/-- Settles O47: an axis is within the range it would be clamped to. -/
theorem loadcmdCopiesSnapshotAxes : Obligations.LoadcmdCopiesSnapshotAxes := by
  intro s
  have h := exec_of_wf (i := .loadcmd) s rfl
  refine ⟨_, h, exec_onlyChanges h, ?_, rfl, rfl⟩
  simp only [effect, State.put_block, Block.writeAxes_cur, satAxis_toInt]

/-- Settles O48: SETGAIN ends in a clamped gain write. -/
theorem setgainClampsNamedGain : Obligations.SetgainClampsNamedGain :=
  fun g a s => exec_writeGain (exec_of_wf (i := .setgain g a) s rfl)

/-- Settles O50: within s16 the low half of the operand has its value. -/
theorem setoffStoresNamedOffset : Obligations.SetoffStoresNamedOffset := by
  intro o a s ha
  have hwf : inS16 a = true := (inS16_iff a).2 ha
  have h := exec_of_wf (i := .setoff o a) s hwf
  refine ⟨_, h, exec_onlyChanges h, rfl, ?_, fun o' hne => Offsets.get_set_of_ne _ _ hne⟩
  exact (congrArg BitVec.toInt (Offsets.get_set _ _ o)).trans (toInt_extract_16 a hwf)

theorem toNat_satDuty (c : Config) (v : Int) : ((satDuty c v).toNat : Int) = max 0 (min v c.maxDuty) := by
  have hle := c.maxDuty_nonneg
  have hhi := sat_upper v hle
  have hmax := c.dutyOk.2
  rw [satDuty, toNat_ofInt_16 (sat_lower v hle) (by omega), sat_eq_max_min v hle, min_comm]

/-- Settles O51: the clamp in each duty, then one write of the four. -/
theorem setactClampsAndPushes : Obligations.SetactClampsAndPushes := by
  intro a b c d s
  have h := exec_of_wf (i := .setact a b c d) s rfl
  exact ⟨_, h, exec_onlyChanges h, rfl, toNat_satDuty _ _, toNat_satDuty _ _, toNat_satDuty _ _, toNat_satDuty _ _,
    rfl, rfl⟩

/-- Settles O53: CLRSTATE writes the zeros and nothing else. -/
theorem clrstateZeroesCommandedAndDerived : Obligations.ClrstateZeroesCommandedAndDerived :=
  fun s => exec_of_wf s rfl

end Sys2Proof.Machine
end

section
/-! Ticks (70_reset_and_hazards.md R188): from each standing of the automaton, the programs it rejects. -/

namespace Sys2Proof.Machine

/-- A MIX comes with nothing between that ends the tick. -/
def ReachesMix (is : List Instr) : Prop :=
  ∃ mid rest, is = mid ++ .mix :: rest ∧ ∀ i ∈ mid, endsTick i = false

/-- A MIX comes with nothing between that ends the tick, and a barred operation before it. -/
def BarredBeforeMix (is : List Instr) : Prop :=
  ∃ mid rest, is = mid ++ .mix :: rest ∧ (∃ b ∈ mid, barredInTick b = true) ∧ ∀ i ∈ mid, endsTick i = false

/-- Somewhere an opening operation is followed by a barred one and its MIX (R188). -/
def HasBrokenTick (is : List Instr) : Prop :=
  ∃ (pre mid rest : List Instr) (opener : Instr), is = pre ++ opener :: (mid ++ .mix :: rest) ∧
    opensTick opener = true ∧ (∃ b ∈ mid, barredInTick b = true) ∧ ∀ i ∈ mid, endsTick i = false

theorem BarredBeforeMix.reachesMix {is : List Instr} (h : BarredBeforeMix is) : ReachesMix is := by
  obtain ⟨mid, rest, his, -, hends⟩ := h
  exact ⟨mid, rest, his, hends⟩

theorem not_reachesMix_nil : ¬ ReachesMix [] := by
  rintro ⟨mid, rest, his, -⟩
  exact List.append_ne_nil_of_right_ne_nil mid (List.cons_ne_nil _ _) his.symm

@[simp] theorem reachesMix_cons (i : Instr) (is : List Instr) :
    ReachesMix (i :: is) ↔ i = .mix ∨ (endsTick i = false ∧ ReachesMix is) := by
  constructor
  · rintro ⟨mid, rest, his, hends⟩
    cases mid with
    | nil => exact .inl (List.cons.inj his).1
    | cons j mid =>
      obtain ⟨rfl, rfl⟩ := List.cons.inj his
      obtain ⟨hj, hmid⟩ := List.forall_mem_cons.1 hends
      exact .inr ⟨hj, mid, rest, rfl, hmid⟩
  · rintro (rfl | ⟨hi, mid, rest, rfl, hmid⟩)
    · exact ⟨[], is, rfl, fun _ h => absurd h List.not_mem_nil⟩
    · exact ⟨i :: mid, rest, rfl, List.forall_mem_cons.2 ⟨hi, hmid⟩⟩

@[simp] theorem barredBeforeMix_cons (i : Instr) (is : List Instr) :
    BarredBeforeMix (i :: is) ↔
      endsTick i = false ∧ (barredInTick i = true ∧ ReachesMix is ∨ BarredBeforeMix is) := by
  constructor
  · rintro ⟨mid, rest, his, ⟨b, hb, hbar⟩, hends⟩
    cases mid with
    | nil => exact absurd hb List.not_mem_nil
    | cons j mid =>
      obtain ⟨rfl, rfl⟩ := List.cons.inj his
      obtain ⟨hj, hmid⟩ := List.forall_mem_cons.1 hends
      obtain rfl | hb := List.mem_cons.1 hb
      · exact ⟨hj, .inl ⟨hbar, mid, rest, rfl, hmid⟩⟩
      · exact ⟨hj, .inr ⟨mid, rest, rfl, ⟨b, hb, hbar⟩, hmid⟩⟩
  · rintro ⟨hi, ⟨hbar, mid, rest, rfl, hmid⟩ | ⟨mid, rest, rfl, ⟨b, hb, hbar⟩, hmid⟩⟩
    · exact ⟨i :: mid, rest, rfl, ⟨i, List.mem_cons_self, hbar⟩, List.forall_mem_cons.2 ⟨hi, hmid⟩⟩
    · exact ⟨i :: mid, rest, rfl, ⟨b, List.mem_cons_of_mem _ hb, hbar⟩, List.forall_mem_cons.2 ⟨hi, hmid⟩⟩

theorem not_hasBrokenTick_nil : ¬ HasBrokenTick [] := by
  rintro ⟨pre, mid, rest, opener, his, -⟩
  exact List.append_ne_nil_of_right_ne_nil pre (List.cons_ne_nil _ _) his.symm

@[simp] theorem hasBrokenTick_cons (i : Instr) (is : List Instr) :
    HasBrokenTick (i :: is) ↔ opensTick i = true ∧ BarredBeforeMix is ∨ HasBrokenTick is := by
  constructor
  · rintro ⟨pre, mid, rest, opener, his, hopen, hrest⟩
    cases pre with
    | nil =>
      obtain ⟨rfl, rfl⟩ := List.cons.inj his
      exact .inl ⟨hopen, mid, rest, rfl, hrest⟩
    | cons j pre =>
      obtain ⟨rfl, rfl⟩ := List.cons.inj his
      exact .inr ⟨pre, mid, rest, opener, rfl, hopen, hrest⟩
  · rintro (⟨hopen, mid, rest, rfl, hrest⟩ | ⟨pre, mid, rest, opener, rfl, hopen, hrest⟩)
    · exact ⟨[], mid, rest, i, rfl, hopen, hrest⟩
    · exact ⟨i :: pre, mid, rest, opener, rfl, hopen, hrest⟩

/-- What a program must hold to be rejected from a standing. -/
def Tick.Breaks (is : List Instr) : Tick → Prop
  | .closed => HasBrokenTick is
  | .opened => BarredBeforeMix is ∨ HasBrokenTick is
  | .broken => ReachesMix is ∨ HasBrokenTick is

theorem Tick.not_breaks_nil (t : Tick) : ¬ t.Breaks [] := by
  have hb : ¬ BarredBeforeMix [] := fun h => not_reachesMix_nil h.reachesMix
  cases t with
  | closed => exact not_hasBrokenTick_nil
  | opened => exact not_or.2 ⟨hb, not_hasBrokenTick_nil⟩
  | broken => exact not_or.2 ⟨not_reachesMix_nil, not_hasBrokenTick_nil⟩

/-- The automaton sees of an operation only whether it is MIX and the three marks of R188. -/
theorem Tick.next_eq (t : Tick) (i : Instr) :
    t.next i =
      if i = .mix then (if t = .broken then none else some .closed)
      else if endsTick i then (if opensTick i then some .opened else some .closed)
      else if opensTick i then some t.load
      else if barredInTick i then some t.bar
      else some t := by
  cases i <;> rfl

theorem barredInTick_of_opensTick {i : Instr} (ho : opensTick i = true) (he : endsTick i = false) :
    barredInTick i = true := by
  cases i with
  | setmom a b c d => rfl
  | momentManual | momentYaw | momentFull => exact absurd he.symm Bool.false_ne_true
  | _ => exact absurd ho Bool.false_ne_true

/-- One operation moves the condition on the program as it moves the automaton. -/
theorem Tick.breaks_cons (t : Tick) (i : Instr) (is : List Instr) :
    t.Breaks (i :: is) ↔ ∀ t', t.next i = some t' → t'.Breaks is := by
  have himp : BarredBeforeMix is → ReachesMix is := BarredBeforeMix.reachesMix
  by_cases hm : i = .mix
  · subst hm
    have he : endsTick .mix = true := rfl
    have ho : opensTick .mix = false := rfl
    cases t <;> simp [Tick.Breaks, Tick.next, he, ho]
  rw [Tick.next_eq, if_neg hm]
  cases he : endsTick i with
  | true =>
    -- A MOMENT starts a tick anew, and a TICK or RESET leaves none: what stood before has no further part.
    cases ho : opensTick i <;> cases t <;> simp [Tick.Breaks, hm, he, ho]
  | false =>
    cases ho : opensTick i with
    | true =>
      -- SETMOM, which opens a tick and is barred in one: a barred operation before the MIX of the new tick stands
      -- before that of the old one too.
      have hb := barredInTick_of_opensTick ho he
      cases t <;> simp [Tick.Breaks, Tick.load, hm, he, ho, hb] <;> tauto
    | false =>
      cases hb : barredInTick i with
      | true =>
        cases t <;> simp [Tick.Breaks, Tick.bar, hm, he, ho, hb]
        tauto
      | false => cases t <;> simp [Tick.Breaks, hm, he, ho, hb]

theorem keepsTicksWhole_eq_false_iff (t : Tick) (is : List Instr) :
    keepsTicksWhole t is = false ↔ t.Breaks is := by
  induction is generalizing t with
  | nil => exact iff_of_false Bool.true_eq_false.mp t.not_breaks_nil
  | cons i is ih =>
    rw [t.breaks_cons, keepsTicksWhole]
    cases t.next i with
    | none => simp
    | some t' => simp [ih]

/-- Settles O60: from the closed tick. -/
theorem brokenTicksAreThoseWithABarredOperation : Obligations.BrokenTicksAreThoseWithABarredOperation :=
  keepsTicksWhole_eq_false_iff .closed

end Sys2Proof.Machine
end
